-- ==== Sys2Proof/Word.lean ====
section
/-!
DEFINITION. The two widths of the core: bytes of the data bus and words of the address bus (00_scope.md R6).
-/
namespace Sys2Proof

/-- An 8-bit value: a byte of the data bus, a register A, X, Y, S or P (R6). -/
abbrev Byte := BitVec 8

/-- A 16-bit value: an address, PC, AD, an interrupt pipeline (R6, R36). -/
abbrev Word := BitVec 16

/-- `zext_16(v)` (R9). -/
abbrev zext16 (v : Byte) : Word := v.setWidth 16

/-- `sext_16(v)` (R9). -/
abbrev sext16 (v : Byte) : Word := v.signExtend 16

end Sys2Proof
end

