-- ==== Sys2Proof/Syntax.lean ====
section
/-!
DEFINITION. The syntax of the 256 instructions: one constructor per row of spec/opcode_table.json
(30_encoding.md R73, R77, R85), with its operand as R70 and R71 give it.

An operand byte is an immediate or a zero-page address, an operand word is a 16-bit address, and a branch carries its
signed offset (R71, R83). A constructor is named by its mnemonic and addressing mode; where a mnemonic has
several opcodes in one mode (NOP, ANC, SBC, JAM), the opcode's two hexadecimal digits follow.
-/
namespace Sys2Proof

/-- The instructions: those with an operand in the order of their opcodes, then those without one in the order of theirs
(Lean's compiler numbers at most 244 constructors that have fields, so these stand first). -/
inductive Instr where
  /-- 0x01 `ORA ($nn,X)`, idx, M_R_ (R200). -/
  | oraIdx (n : Byte)
  /-- 0x03 `SLO ($nn,X)`, idx, M_RW (R261). -/
  | sloIdx (n : Byte)
  /-- 0x04 `NOP $nn`, zp, M_R_ (R282). -/
  | nopZp04 (n : Byte)
  /-- 0x05 `ORA $nn`, zp, M_R_ (R200). -/
  | oraZp (n : Byte)
  /-- 0x06 `ASL $nn`, zp, M_RW (R217). -/
  | aslZp (n : Byte)
  /-- 0x07 `SLO $nn`, zp, M_RW (R261). -/
  | sloZp (n : Byte)
  /-- 0x09 `ORA #$nn`, imm, M_R_ (R200). -/
  | oraImm (n : Byte)
  /-- 0x0B `ANC #$nn`, imm, M_R_ (R269). -/
  | ancImm0B (n : Byte)
  /-- 0x0C `NOP $nnnn`, abs, M_R_ (R282). -/
  | nopAbs0C (a : Word)
  /-- 0x0D `ORA $nnnn`, abs, M_R_ (R200). -/
  | oraAbs (a : Word)
  /-- 0x0E `ASL $nnnn`, abs, M_RW (R217). -/
  | aslAbs (a : Word)
  /-- 0x0F `SLO $nnnn`, abs, M_RW (R261). -/
  | sloAbs (a : Word)
  /-- 0x10 `BPL $nnnn (offset byte)`, imm, M_R_ (R242). -/
  | bpl (o : Int)
  /-- 0x11 `ORA ($nn),Y`, idy, M_R_ (R200). -/
  | oraIdy (n : Byte)
  /-- 0x13 `SLO ($nn),Y`, idy, M_RW (R261). -/
  | sloIdy (n : Byte)
  /-- 0x14 `NOP $nn,X`, zpx, M_R_ (R282). -/
  | nopZpx14 (n : Byte)
  /-- 0x15 `ORA $nn,X`, zpx, M_R_ (R200). -/
  | oraZpx (n : Byte)
  /-- 0x16 `ASL $nn,X`, zpx, M_RW (R217). -/
  | aslZpx (n : Byte)
  /-- 0x17 `SLO $nn,X`, zpx, M_RW (R261). -/
  | sloZpx (n : Byte)
  /-- 0x19 `ORA $nnnn,Y`, aby, M_R_ (R200). -/
  | oraAby (a : Word)
  /-- 0x1B `SLO $nnnn,Y`, aby, M_RW (R261). -/
  | sloAby (a : Word)
  /-- 0x1C `NOP $nnnn,X`, abx, M_R_ (R282). -/
  | nopAbx1C (a : Word)
  /-- 0x1D `ORA $nnnn,X`, abx, M_R_ (R200). -/
  | oraAbx (a : Word)
  /-- 0x1E `ASL $nnnn,X`, abx, M_RW (R217). -/
  | aslAbx (a : Word)
  /-- 0x1F `SLO $nnnn,X`, abx, M_RW (R261). -/
  | sloAbx (a : Word)
  /-- 0x20 `JSR $nnnn`, jsr, M_R_ (R236). -/
  | jsr (a : Word)
  /-- 0x21 `AND ($nn,X)`, idx, M_R_ (R201). -/
  | andIdx (n : Byte)
  /-- 0x23 `RLA ($nn,X)`, idx, M_RW (R262). -/
  | rlaIdx (n : Byte)
  /-- 0x24 `BIT $nn`, zp, M_R_ (R208). -/
  | bitZp (n : Byte)
  /-- 0x25 `AND $nn`, zp, M_R_ (R201). -/
  | andZp (n : Byte)
  /-- 0x26 `ROL $nn`, zp, M_RW (R219). -/
  | rolZp (n : Byte)
  /-- 0x27 `RLA $nn`, zp, M_RW (R262). -/
  | rlaZp (n : Byte)
  /-- 0x29 `AND #$nn`, imm, M_R_ (R201). -/
  | andImm (n : Byte)
  /-- 0x2B `ANC #$nn`, imm, M_R_ (R269). -/
  | ancImm2B (n : Byte)
  /-- 0x2C `BIT $nnnn`, abs, M_R_ (R208). -/
  | bitAbs (a : Word)
  /-- 0x2D `AND $nnnn`, abs, M_R_ (R201). -/
  | andAbs (a : Word)
  /-- 0x2E `ROL $nnnn`, abs, M_RW (R219). -/
  | rolAbs (a : Word)
  /-- 0x2F `RLA $nnnn`, abs, M_RW (R262). -/
  | rlaAbs (a : Word)
  /-- 0x30 `BMI $nnnn (offset byte)`, imm, M_R_ (R243). -/
  | bmi (o : Int)
  /-- 0x31 `AND ($nn),Y`, idy, M_R_ (R201). -/
  | andIdy (n : Byte)
  /-- 0x33 `RLA ($nn),Y`, idy, M_RW (R262). -/
  | rlaIdy (n : Byte)
  /-- 0x34 `NOP $nn,X`, zpx, M_R_ (R282). -/
  | nopZpx34 (n : Byte)
  /-- 0x35 `AND $nn,X`, zpx, M_R_ (R201). -/
  | andZpx (n : Byte)
  /-- 0x36 `ROL $nn,X`, zpx, M_RW (R219). -/
  | rolZpx (n : Byte)
  /-- 0x37 `RLA $nn,X`, zpx, M_RW (R262). -/
  | rlaZpx (n : Byte)
  /-- 0x39 `AND $nnnn,Y`, aby, M_R_ (R201). -/
  | andAby (a : Word)
  /-- 0x3B `RLA $nnnn,Y`, aby, M_RW (R262). -/
  | rlaAby (a : Word)
  /-- 0x3C `NOP $nnnn,X`, abx, M_R_ (R282). -/
  | nopAbx3C (a : Word)
  /-- 0x3D `AND $nnnn,X`, abx, M_R_ (R201). -/
  | andAbx (a : Word)
  /-- 0x3E `ROL $nnnn,X`, abx, M_RW (R219). -/
  | rolAbx (a : Word)
  /-- 0x3F `RLA $nnnn,X`, abx, M_RW (R262). -/
  | rlaAbx (a : Word)
  /-- 0x41 `EOR ($nn,X)`, idx, M_R_ (R202). -/
  | eorIdx (n : Byte)
  /-- 0x43 `SRE ($nn,X)`, idx, M_RW (R263). -/
  | sreIdx (n : Byte)
  /-- 0x44 `NOP $nn`, zp, M_R_ (R282). -/
  | nopZp44 (n : Byte)
  /-- 0x45 `EOR $nn`, zp, M_R_ (R202). -/
  | eorZp (n : Byte)
  /-- 0x46 `LSR $nn`, zp, M_RW (R218). -/
  | lsrZp (n : Byte)
  /-- 0x47 `SRE $nn`, zp, M_RW (R263). -/
  | sreZp (n : Byte)
  /-- 0x49 `EOR #$nn`, imm, M_R_ (R202). -/
  | eorImm (n : Byte)
  /-- 0x4B `ASR #$nn`, imm, M_R_ (R270). -/
  | asrImm (n : Byte)
  /-- 0x4C `JMP $nnnn`, jmp, M_R_ (R234). -/
  | jmpAbs (a : Word)
  /-- 0x4D `EOR $nnnn`, abs, M_R_ (R202). -/
  | eorAbs (a : Word)
  /-- 0x4E `LSR $nnnn`, abs, M_RW (R218). -/
  | lsrAbs (a : Word)
  /-- 0x4F `SRE $nnnn`, abs, M_RW (R263). -/
  | sreAbs (a : Word)
  /-- 0x50 `BVC $nnnn (offset byte)`, imm, M_R_ (R244). -/
  | bvc (o : Int)
  /-- 0x51 `EOR ($nn),Y`, idy, M_R_ (R202). -/
  | eorIdy (n : Byte)
  /-- 0x53 `SRE ($nn),Y`, idy, M_RW (R263). -/
  | sreIdy (n : Byte)
  /-- 0x54 `NOP $nn,X`, zpx, M_R_ (R282). -/
  | nopZpx54 (n : Byte)
  /-- 0x55 `EOR $nn,X`, zpx, M_R_ (R202). -/
  | eorZpx (n : Byte)
  /-- 0x56 `LSR $nn,X`, zpx, M_RW (R218). -/
  | lsrZpx (n : Byte)
  /-- 0x57 `SRE $nn,X`, zpx, M_RW (R263). -/
  | sreZpx (n : Byte)
  /-- 0x59 `EOR $nnnn,Y`, aby, M_R_ (R202). -/
  | eorAby (a : Word)
  /-- 0x5B `SRE $nnnn,Y`, aby, M_RW (R263). -/
  | sreAby (a : Word)
  /-- 0x5C `NOP $nnnn,X`, abx, M_R_ (R282). -/
  | nopAbx5C (a : Word)
  /-- 0x5D `EOR $nnnn,X`, abx, M_R_ (R202). -/
  | eorAbx (a : Word)
  /-- 0x5E `LSR $nnnn,X`, abx, M_RW (R218). -/
  | lsrAbx (a : Word)
  /-- 0x5F `SRE $nnnn,X`, abx, M_RW (R263). -/
  | sreAbx (a : Word)
  /-- 0x61 `ADC ($nn,X)`, idx, M_R_ (R203). -/
  | adcIdx (n : Byte)
  /-- 0x63 `RRA ($nn,X)`, idx, M_RW (R264). -/
  | rraIdx (n : Byte)
  /-- 0x64 `NOP $nn`, zp, M_R_ (R282). -/
  | nopZp64 (n : Byte)
  /-- 0x65 `ADC $nn`, zp, M_R_ (R203). -/
  | adcZp (n : Byte)
  /-- 0x66 `ROR $nn`, zp, M_RW (R220). -/
  | rorZp (n : Byte)
  /-- 0x67 `RRA $nn`, zp, M_RW (R264). -/
  | rraZp (n : Byte)
  /-- 0x69 `ADC #$nn`, imm, M_R_ (R203). -/
  | adcImm (n : Byte)
  /-- 0x6B `ARR #$nn`, imm, M_R_ (R271). -/
  | arrImm (n : Byte)
  /-- 0x6C `JMP ($nnnn)`, jmp, M_R_ (R235). -/
  | jmpInd (a : Word)
  /-- 0x6D `ADC $nnnn`, abs, M_R_ (R203). -/
  | adcAbs (a : Word)
  /-- 0x6E `ROR $nnnn`, abs, M_RW (R220). -/
  | rorAbs (a : Word)
  /-- 0x6F `RRA $nnnn`, abs, M_RW (R264). -/
  | rraAbs (a : Word)
  /-- 0x70 `BVS $nnnn (offset byte)`, imm, M_R_ (R245). -/
  | bvs (o : Int)
  /-- 0x71 `ADC ($nn),Y`, idy, M_R_ (R203). -/
  | adcIdy (n : Byte)
  /-- 0x73 `RRA ($nn),Y`, idy, M_RW (R264). -/
  | rraIdy (n : Byte)
  /-- 0x74 `NOP $nn,X`, zpx, M_R_ (R282). -/
  | nopZpx74 (n : Byte)
  /-- 0x75 `ADC $nn,X`, zpx, M_R_ (R203). -/
  | adcZpx (n : Byte)
  /-- 0x76 `ROR $nn,X`, zpx, M_RW (R220). -/
  | rorZpx (n : Byte)
  /-- 0x77 `RRA $nn,X`, zpx, M_RW (R264). -/
  | rraZpx (n : Byte)
  /-- 0x79 `ADC $nnnn,Y`, aby, M_R_ (R203). -/
  | adcAby (a : Word)
  /-- 0x7B `RRA $nnnn,Y`, aby, M_RW (R264). -/
  | rraAby (a : Word)
  /-- 0x7C `NOP $nnnn,X`, abx, M_R_ (R282). -/
  | nopAbx7C (a : Word)
  /-- 0x7D `ADC $nnnn,X`, abx, M_R_ (R203). -/
  | adcAbx (a : Word)
  /-- 0x7E `ROR $nnnn,X`, abx, M_RW (R220). -/
  | rorAbx (a : Word)
  /-- 0x7F `RRA $nnnn,X`, abx, M_RW (R264). -/
  | rraAbx (a : Word)
  /-- 0x80 `NOP #$nn`, imm, M_R_ (R282). -/
  | nopImm80 (n : Byte)
  /-- 0x81 `STA ($nn,X)`, idx, M__W (R174). -/
  | staIdx (n : Byte)
  /-- 0x82 `NOP #$nn`, imm, M_R_ (R282). -/
  | nopImm82 (n : Byte)
  /-- 0x83 `SAX ($nn,X)`, idx, M__W (R265). -/
  | saxIdx (n : Byte)
  /-- 0x84 `STY $nn`, zp, M__W (R176). -/
  | styZp (n : Byte)
  /-- 0x85 `STA $nn`, zp, M__W (R174). -/
  | staZp (n : Byte)
  /-- 0x86 `STX $nn`, zp, M__W (R175). -/
  | stxZp (n : Byte)
  /-- 0x87 `SAX $nn`, zp, M__W (R265). -/
  | saxZp (n : Byte)
  /-- 0x89 `NOP #$nn`, imm, M_R_ (R282). -/
  | nopImm89 (n : Byte)
  /-- 0x8B `ANE #$nn`, imm, M_R_ (R272). -/
  | aneImm (n : Byte)
  /-- 0x8C `STY $nnnn`, abs, M__W (R176). -/
  | styAbs (a : Word)
  /-- 0x8D `STA $nnnn`, abs, M__W (R174). -/
  | staAbs (a : Word)
  /-- 0x8E `STX $nnnn`, abs, M__W (R175). -/
  | stxAbs (a : Word)
  /-- 0x8F `SAX $nnnn`, abs, M__W (R265). -/
  | saxAbs (a : Word)
  /-- 0x90 `BCC $nnnn (offset byte)`, imm, M_R_ (R246). -/
  | bcc (o : Int)
  /-- 0x91 `STA ($nn),Y`, idy, M__W (R174). -/
  | staIdy (n : Byte)
  /-- 0x93 `SHA ($nn),Y`, idy, M__W (R276). -/
  | shaIdy (n : Byte)
  /-- 0x94 `STY $nn,X`, zpx, M__W (R176). -/
  | styZpx (n : Byte)
  /-- 0x95 `STA $nn,X`, zpx, M__W (R174). -/
  | staZpx (n : Byte)
  /-- 0x96 `STX $nn,Y`, zpy, M__W (R175). -/
  | stxZpy (n : Byte)
  /-- 0x97 `SAX $nn,Y`, zpy, M__W (R265). -/
  | saxZpy (n : Byte)
  /-- 0x99 `STA $nnnn,Y`, aby, M__W (R174). -/
  | staAby (a : Word)
  /-- 0x9B `SHS $nnnn,Y`, aby, M__W (R279). -/
  | shsAby (a : Word)
  /-- 0x9C `SHY $nnnn,X`, abx, M__W (R278). -/
  | shyAbx (a : Word)
  /-- 0x9D `STA $nnnn,X`, abx, M__W (R174). -/
  | staAbx (a : Word)
  /-- 0x9E `SHX $nnnn,Y`, aby, M__W (R277). -/
  | shxAby (a : Word)
  /-- 0x9F `SHA $nnnn,Y`, aby, M__W (R276). -/
  | shaAby (a : Word)
  /-- 0xA0 `LDY #$nn`, imm, M_R_ (R173). -/
  | ldyImm (n : Byte)
  /-- 0xA1 `LDA ($nn,X)`, idx, M_R_ (R171). -/
  | ldaIdx (n : Byte)
  /-- 0xA2 `LDX #$nn`, imm, M_R_ (R172). -/
  | ldxImm (n : Byte)
  /-- 0xA3 `LAX ($nn,X)`, idx, M_R_ (R266). -/
  | laxIdx (n : Byte)
  /-- 0xA4 `LDY $nn`, zp, M_R_ (R173). -/
  | ldyZp (n : Byte)
  /-- 0xA5 `LDA $nn`, zp, M_R_ (R171). -/
  | ldaZp (n : Byte)
  /-- 0xA6 `LDX $nn`, zp, M_R_ (R172). -/
  | ldxZp (n : Byte)
  /-- 0xA7 `LAX $nn`, zp, M_R_ (R266). -/
  | laxZp (n : Byte)
  /-- 0xA9 `LDA #$nn`, imm, M_R_ (R171). -/
  | ldaImm (n : Byte)
  /-- 0xAB `LXA #$nn`, imm, M_R_ (R273). -/
  | lxaImm (n : Byte)
  /-- 0xAC `LDY $nnnn`, abs, M_R_ (R173). -/
  | ldyAbs (a : Word)
  /-- 0xAD `LDA $nnnn`, abs, M_R_ (R171). -/
  | ldaAbs (a : Word)
  /-- 0xAE `LDX $nnnn`, abs, M_R_ (R172). -/
  | ldxAbs (a : Word)
  /-- 0xAF `LAX $nnnn`, abs, M_R_ (R266). -/
  | laxAbs (a : Word)
  /-- 0xB0 `BCS $nnnn (offset byte)`, imm, M_R_ (R247). -/
  | bcs (o : Int)
  /-- 0xB1 `LDA ($nn),Y`, idy, M_R_ (R171). -/
  | ldaIdy (n : Byte)
  /-- 0xB3 `LAX ($nn),Y`, idy, M_R_ (R266). -/
  | laxIdy (n : Byte)
  /-- 0xB4 `LDY $nn,X`, zpx, M_R_ (R173). -/
  | ldyZpx (n : Byte)
  /-- 0xB5 `LDA $nn,X`, zpx, M_R_ (R171). -/
  | ldaZpx (n : Byte)
  /-- 0xB6 `LDX $nn,Y`, zpy, M_R_ (R172). -/
  | ldxZpy (n : Byte)
  /-- 0xB7 `LAX $nn,Y`, zpy, M_R_ (R266). -/
  | laxZpy (n : Byte)
  /-- 0xB9 `LDA $nnnn,Y`, aby, M_R_ (R171). -/
  | ldaAby (a : Word)
  /-- 0xBB `LAS $nnnn,Y`, aby, M_R_ (R280). -/
  | lasAby (a : Word)
  /-- 0xBC `LDY $nnnn,X`, abx, M_R_ (R173). -/
  | ldyAbx (a : Word)
  /-- 0xBD `LDA $nnnn,X`, abx, M_R_ (R171). -/
  | ldaAbx (a : Word)
  /-- 0xBE `LDX $nnnn,Y`, aby, M_R_ (R172). -/
  | ldxAby (a : Word)
  /-- 0xBF `LAX $nnnn,Y`, aby, M_R_ (R266). -/
  | laxAby (a : Word)
  /-- 0xC0 `CPY #$nn`, imm, M_R_ (R207). -/
  | cpyImm (n : Byte)
  /-- 0xC1 `CMP ($nn,X)`, idx, M_R_ (R205). -/
  | cmpIdx (n : Byte)
  /-- 0xC2 `NOP #$nn`, imm, M_R_ (R282). -/
  | nopImmC2 (n : Byte)
  /-- 0xC3 `DCP ($nn,X)`, idx, M_RW (R267). -/
  | dcpIdx (n : Byte)
  /-- 0xC4 `CPY $nn`, zp, M_R_ (R207). -/
  | cpyZp (n : Byte)
  /-- 0xC5 `CMP $nn`, zp, M_R_ (R205). -/
  | cmpZp (n : Byte)
  /-- 0xC6 `DEC $nn`, zp, M_RW (R216). -/
  | decZp (n : Byte)
  /-- 0xC7 `DCP $nn`, zp, M_RW (R267). -/
  | dcpZp (n : Byte)
  /-- 0xC9 `CMP #$nn`, imm, M_R_ (R205). -/
  | cmpImm (n : Byte)
  /-- 0xCB `SBX #$nn`, imm, M_R_ (R274). -/
  | sbxImm (n : Byte)
  /-- 0xCC `CPY $nnnn`, abs, M_R_ (R207). -/
  | cpyAbs (a : Word)
  /-- 0xCD `CMP $nnnn`, abs, M_R_ (R205). -/
  | cmpAbs (a : Word)
  /-- 0xCE `DEC $nnnn`, abs, M_RW (R216). -/
  | decAbs (a : Word)
  /-- 0xCF `DCP $nnnn`, abs, M_RW (R267). -/
  | dcpAbs (a : Word)
  /-- 0xD0 `BNE $nnnn (offset byte)`, imm, M_R_ (R248). -/
  | bne (o : Int)
  /-- 0xD1 `CMP ($nn),Y`, idy, M_R_ (R205). -/
  | cmpIdy (n : Byte)
  /-- 0xD3 `DCP ($nn),Y`, idy, M_RW (R267). -/
  | dcpIdy (n : Byte)
  /-- 0xD4 `NOP $nn,X`, zpx, M_R_ (R282). -/
  | nopZpxD4 (n : Byte)
  /-- 0xD5 `CMP $nn,X`, zpx, M_R_ (R205). -/
  | cmpZpx (n : Byte)
  /-- 0xD6 `DEC $nn,X`, zpx, M_RW (R216). -/
  | decZpx (n : Byte)
  /-- 0xD7 `DCP $nn,X`, zpx, M_RW (R267). -/
  | dcpZpx (n : Byte)
  /-- 0xD9 `CMP $nnnn,Y`, aby, M_R_ (R205). -/
  | cmpAby (a : Word)
  /-- 0xDB `DCP $nnnn,Y`, aby, M_RW (R267). -/
  | dcpAby (a : Word)
  /-- 0xDC `NOP $nnnn,X`, abx, M_R_ (R282). -/
  | nopAbxDC (a : Word)
  /-- 0xDD `CMP $nnnn,X`, abx, M_R_ (R205). -/
  | cmpAbx (a : Word)
  /-- 0xDE `DEC $nnnn,X`, abx, M_RW (R216). -/
  | decAbx (a : Word)
  /-- 0xDF `DCP $nnnn,X`, abx, M_RW (R267). -/
  | dcpAbx (a : Word)
  /-- 0xE0 `CPX #$nn`, imm, M_R_ (R206). -/
  | cpxImm (n : Byte)
  /-- 0xE1 `SBC ($nn,X)`, idx, M_R_ (R204). -/
  | sbcIdx (n : Byte)
  /-- 0xE2 `NOP #$nn`, imm, M_R_ (R282). -/
  | nopImmE2 (n : Byte)
  /-- 0xE3 `ISB ($nn,X)`, idx, M_RW (R268). -/
  | isbIdx (n : Byte)
  /-- 0xE4 `CPX $nn`, zp, M_R_ (R206). -/
  | cpxZp (n : Byte)
  /-- 0xE5 `SBC $nn`, zp, M_R_ (R204). -/
  | sbcZp (n : Byte)
  /-- 0xE6 `INC $nn`, zp, M_RW (R215). -/
  | incZp (n : Byte)
  /-- 0xE7 `ISB $nn`, zp, M_RW (R268). -/
  | isbZp (n : Byte)
  /-- 0xE9 `SBC #$nn`, imm, M_R_ (R204). -/
  | sbcImm (n : Byte)
  /-- 0xEB `SBC #$nn`, imm, M_R_ (R281). -/
  | sbcImmEB (n : Byte)
  /-- 0xEC `CPX $nnnn`, abs, M_R_ (R206). -/
  | cpxAbs (a : Word)
  /-- 0xED `SBC $nnnn`, abs, M_R_ (R204). -/
  | sbcAbs (a : Word)
  /-- 0xEE `INC $nnnn`, abs, M_RW (R215). -/
  | incAbs (a : Word)
  /-- 0xEF `ISB $nnnn`, abs, M_RW (R268). -/
  | isbAbs (a : Word)
  /-- 0xF0 `BEQ $nnnn (offset byte)`, imm, M_R_ (R249). -/
  | beq (o : Int)
  /-- 0xF1 `SBC ($nn),Y`, idy, M_R_ (R204). -/
  | sbcIdy (n : Byte)
  /-- 0xF3 `ISB ($nn),Y`, idy, M_RW (R268). -/
  | isbIdy (n : Byte)
  /-- 0xF4 `NOP $nn,X`, zpx, M_R_ (R282). -/
  | nopZpxF4 (n : Byte)
  /-- 0xF5 `SBC $nn,X`, zpx, M_R_ (R204). -/
  | sbcZpx (n : Byte)
  /-- 0xF6 `INC $nn,X`, zpx, M_RW (R215). -/
  | incZpx (n : Byte)
  /-- 0xF7 `ISB $nn,X`, zpx, M_RW (R268). -/
  | isbZpx (n : Byte)
  /-- 0xF9 `SBC $nnnn,Y`, aby, M_R_ (R204). -/
  | sbcAby (a : Word)
  /-- 0xFB `ISB $nnnn,Y`, aby, M_RW (R268). -/
  | isbAby (a : Word)
  /-- 0xFC `NOP $nnnn,X`, abx, M_R_ (R282). -/
  | nopAbxFC (a : Word)
  /-- 0xFD `SBC $nnnn,X`, abx, M_R_ (R204). -/
  | sbcAbx (a : Word)
  /-- 0xFE `INC $nnnn,X`, abx, M_RW (R215). -/
  | incAbx (a : Word)
  /-- 0xFF `ISB $nnnn,X`, abx, M_RW (R268). -/
  | isbAbx (a : Word)
  /-- 0x00 `BRK`, none, M___ (R239). -/
  | brk
  /-- 0x02 `JAM`, inv, M___ (R290). -/
  | jam02
  /-- 0x08 `PHP`, none, M__W (R231). -/
  | php
  /-- 0x0A `ASL A`, none, M___ (R217). -/
  | aslA
  /-- 0x12 `JAM`, inv, M___ (R290). -/
  | jam12
  /-- 0x18 `CLC`, none, M___ (R183). -/
  | clc
  /-- 0x1A `NOP`, none, M___ (R282). -/
  | nop1A
  /-- 0x22 `JAM`, inv, M___ (R290). -/
  | jam22
  /-- 0x28 `PLP`, none, M___ (R233). -/
  | plp
  /-- 0x2A `ROL A`, none, M___ (R219). -/
  | rolA
  /-- 0x32 `JAM`, inv, M___ (R290). -/
  | jam32
  /-- 0x38 `SEC`, none, M___ (R184). -/
  | sec
  /-- 0x3A `NOP`, none, M___ (R282). -/
  | nop3A
  /-- 0x40 `RTI`, none, M___ (R238). -/
  | rti
  /-- 0x42 `JAM`, inv, M___ (R290). -/
  | jam42
  /-- 0x48 `PHA`, none, M__W (R230). -/
  | pha
  /-- 0x4A `LSR A`, none, M___ (R218). -/
  | lsrA
  /-- 0x52 `JAM`, inv, M___ (R290). -/
  | jam52
  /-- 0x58 `CLI`, none, M___ (R185). -/
  | cli
  /-- 0x5A `NOP`, none, M___ (R282). -/
  | nop5A
  /-- 0x60 `RTS`, none, M___ (R237). -/
  | rts
  /-- 0x62 `JAM`, inv, M___ (R290). -/
  | jam62
  /-- 0x68 `PLA`, none, M___ (R232). -/
  | pla
  /-- 0x6A `ROR A`, none, M___ (R220). -/
  | rorA
  /-- 0x72 `JAM`, inv, M___ (R290). -/
  | jam72
  /-- 0x78 `SEI`, none, M___ (R186). -/
  | sei
  /-- 0x7A `NOP`, none, M___ (R282). -/
  | nop7A
  /-- 0x88 `DEY`, none, M___ (R212). -/
  | dey
  /-- 0x8A `TXA`, none, M___ (R179). -/
  | txa
  /-- 0x92 `JAM`, inv, M___ (R290). -/
  | jam92
  /-- 0x98 `TYA`, none, M___ (R180). -/
  | tya
  /-- 0x9A `TXS`, none, M___ (R182). -/
  | txs
  /-- 0xA8 `TAY`, none, M___ (R178). -/
  | tay
  /-- 0xAA `TAX`, none, M___ (R177). -/
  | tax
  /-- 0xB2 `JAM`, inv, M___ (R290). -/
  | jamB2
  /-- 0xB8 `CLV`, none, M___ (R189). -/
  | clv
  /-- 0xBA `TSX`, none, M___ (R181). -/
  | tsx
  /-- 0xC8 `INY`, none, M___ (R210). -/
  | iny
  /-- 0xCA `DEX`, none, M___ (R211). -/
  | dex
  /-- 0xD2 `JAM`, inv, M___ (R290). -/
  | jamD2
  /-- 0xD8 `CLD`, none, M___ (R187). -/
  | cld
  /-- 0xDA `NOP`, none, M___ (R282). -/
  | nopDA
  /-- 0xE8 `INX`, none, M___ (R209). -/
  | inx
  /-- 0xEA `NOP`, none, M___ (R250). -/
  | nopEA
  /-- 0xF2 `JAM`, inv, M___ (R290). -/
  | jamF2
  /-- 0xF8 `SED`, none, M___ (R188). -/
  | sed
  /-- 0xFA `NOP`, none, M___ (R282). -/
  | nopFA
  deriving DecidableEq, Repr

end Sys2Proof
end

