-- ==== Sys2Proof/WellFormed.lean ====
section
/-!
DEFINITION. The check an instruction term must pass to have an encoding.

An operand byte and an operand word fill their encodings, so only a branch can be ill-formed: its offset must lie in
-128..+127 (30_encoding.md R83).
-/
namespace Sys2Proof

/-- The offset of a relative branch, and `none` for every other instruction. -/
def branchOffset? (i : Instr) : Option Int :=
  match i with
  | .bpl o => some o
  | .bmi o => some o
  | .bvc o => some o
  | .bvs o => some o
  | .bcc o => some o
  | .bcs o => some o
  | .bne o => some o
  | .beq o => some o
  | .brk => none
  | .oraIdx _ => none
  | .jam02 => none
  | .sloIdx _ => none
  | .nopZp04 _ => none
  | .oraZp _ => none
  | .aslZp _ => none
  | .sloZp _ => none
  | .php => none
  | .oraImm _ => none
  | .aslA => none
  | .ancImm0B _ => none
  | .nopAbs0C _ => none
  | .oraAbs _ => none
  | .aslAbs _ => none
  | .sloAbs _ => none
  | .oraIdy _ => none
  | .jam12 => none
  | .sloIdy _ => none
  | .nopZpx14 _ => none
  | .oraZpx _ => none
  | .aslZpx _ => none
  | .sloZpx _ => none
  | .clc => none
  | .oraAby _ => none
  | .nop1A => none
  | .sloAby _ => none
  | .nopAbx1C _ => none
  | .oraAbx _ => none
  | .aslAbx _ => none
  | .sloAbx _ => none
  | .jsr _ => none
  | .andIdx _ => none
  | .jam22 => none
  | .rlaIdx _ => none
  | .bitZp _ => none
  | .andZp _ => none
  | .rolZp _ => none
  | .rlaZp _ => none
  | .plp => none
  | .andImm _ => none
  | .rolA => none
  | .ancImm2B _ => none
  | .bitAbs _ => none
  | .andAbs _ => none
  | .rolAbs _ => none
  | .rlaAbs _ => none
  | .andIdy _ => none
  | .jam32 => none
  | .rlaIdy _ => none
  | .nopZpx34 _ => none
  | .andZpx _ => none
  | .rolZpx _ => none
  | .rlaZpx _ => none
  | .sec => none
  | .andAby _ => none
  | .nop3A => none
  | .rlaAby _ => none
  | .nopAbx3C _ => none
  | .andAbx _ => none
  | .rolAbx _ => none
  | .rlaAbx _ => none
  | .rti => none
  | .eorIdx _ => none
  | .jam42 => none
  | .sreIdx _ => none
  | .nopZp44 _ => none
  | .eorZp _ => none
  | .lsrZp _ => none
  | .sreZp _ => none
  | .pha => none
  | .eorImm _ => none
  | .lsrA => none
  | .asrImm _ => none
  | .jmpAbs _ => none
  | .eorAbs _ => none
  | .lsrAbs _ => none
  | .sreAbs _ => none
  | .eorIdy _ => none
  | .jam52 => none
  | .sreIdy _ => none
  | .nopZpx54 _ => none
  | .eorZpx _ => none
  | .lsrZpx _ => none
  | .sreZpx _ => none
  | .cli => none
  | .eorAby _ => none
  | .nop5A => none
  | .sreAby _ => none
  | .nopAbx5C _ => none
  | .eorAbx _ => none
  | .lsrAbx _ => none
  | .sreAbx _ => none
  | .rts => none
  | .adcIdx _ => none
  | .jam62 => none
  | .rraIdx _ => none
  | .nopZp64 _ => none
  | .adcZp _ => none
  | .rorZp _ => none
  | .rraZp _ => none
  | .pla => none
  | .adcImm _ => none
  | .rorA => none
  | .arrImm _ => none
  | .jmpInd _ => none
  | .adcAbs _ => none
  | .rorAbs _ => none
  | .rraAbs _ => none
  | .adcIdy _ => none
  | .jam72 => none
  | .rraIdy _ => none
  | .nopZpx74 _ => none
  | .adcZpx _ => none
  | .rorZpx _ => none
  | .rraZpx _ => none
  | .sei => none
  | .adcAby _ => none
  | .nop7A => none
  | .rraAby _ => none
  | .nopAbx7C _ => none
  | .adcAbx _ => none
  | .rorAbx _ => none
  | .rraAbx _ => none
  | .nopImm80 _ => none
  | .staIdx _ => none
  | .nopImm82 _ => none
  | .saxIdx _ => none
  | .styZp _ => none
  | .staZp _ => none
  | .stxZp _ => none
  | .saxZp _ => none
  | .dey => none
  | .nopImm89 _ => none
  | .txa => none
  | .aneImm _ => none
  | .styAbs _ => none
  | .staAbs _ => none
  | .stxAbs _ => none
  | .saxAbs _ => none
  | .staIdy _ => none
  | .jam92 => none
  | .shaIdy _ => none
  | .styZpx _ => none
  | .staZpx _ => none
  | .stxZpy _ => none
  | .saxZpy _ => none
  | .tya => none
  | .staAby _ => none
  | .txs => none
  | .shsAby _ => none
  | .shyAbx _ => none
  | .staAbx _ => none
  | .shxAby _ => none
  | .shaAby _ => none
  | .ldyImm _ => none
  | .ldaIdx _ => none
  | .ldxImm _ => none
  | .laxIdx _ => none
  | .ldyZp _ => none
  | .ldaZp _ => none
  | .ldxZp _ => none
  | .laxZp _ => none
  | .tay => none
  | .ldaImm _ => none
  | .tax => none
  | .lxaImm _ => none
  | .ldyAbs _ => none
  | .ldaAbs _ => none
  | .ldxAbs _ => none
  | .laxAbs _ => none
  | .ldaIdy _ => none
  | .jamB2 => none
  | .laxIdy _ => none
  | .ldyZpx _ => none
  | .ldaZpx _ => none
  | .ldxZpy _ => none
  | .laxZpy _ => none
  | .clv => none
  | .ldaAby _ => none
  | .tsx => none
  | .lasAby _ => none
  | .ldyAbx _ => none
  | .ldaAbx _ => none
  | .ldxAby _ => none
  | .laxAby _ => none
  | .cpyImm _ => none
  | .cmpIdx _ => none
  | .nopImmC2 _ => none
  | .dcpIdx _ => none
  | .cpyZp _ => none
  | .cmpZp _ => none
  | .decZp _ => none
  | .dcpZp _ => none
  | .iny => none
  | .cmpImm _ => none
  | .dex => none
  | .sbxImm _ => none
  | .cpyAbs _ => none
  | .cmpAbs _ => none
  | .decAbs _ => none
  | .dcpAbs _ => none
  | .cmpIdy _ => none
  | .jamD2 => none
  | .dcpIdy _ => none
  | .nopZpxD4 _ => none
  | .cmpZpx _ => none
  | .decZpx _ => none
  | .dcpZpx _ => none
  | .cld => none
  | .cmpAby _ => none
  | .nopDA => none
  | .dcpAby _ => none
  | .nopAbxDC _ => none
  | .cmpAbx _ => none
  | .decAbx _ => none
  | .dcpAbx _ => none
  | .cpxImm _ => none
  | .sbcIdx _ => none
  | .nopImmE2 _ => none
  | .isbIdx _ => none
  | .cpxZp _ => none
  | .sbcZp _ => none
  | .incZp _ => none
  | .isbZp _ => none
  | .inx => none
  | .sbcImm _ => none
  | .nopEA => none
  | .sbcImmEB _ => none
  | .cpxAbs _ => none
  | .sbcAbs _ => none
  | .incAbs _ => none
  | .isbAbs _ => none
  | .sbcIdy _ => none
  | .jamF2 => none
  | .isbIdy _ => none
  | .nopZpxF4 _ => none
  | .sbcZpx _ => none
  | .incZpx _ => none
  | .isbZpx _ => none
  | .sed => none
  | .sbcAby _ => none
  | .nopFA => none
  | .isbAby _ => none
  | .nopAbxFC _ => none
  | .sbcAbx _ => none
  | .incAbx _ => none
  | .isbAbx _ => none

/-- R83: a branch offset must be a signed byte. -/
def offsetFits (o : Int) : Bool := decide (-128 ≤ o) && decide (o ≤ 127)

/-- A well-formed instruction: one that some bytes encode. -/
def wellFormed (i : Instr) : Bool :=
  match branchOffset? i with
  | some o => offsetFits o
  | none => true

end Sys2Proof
end

