-- ==== Sys2Proof/Decode.lean ====
section
/-!
DEFINITION. The decoder and the encoder (30_encoding.md R70-R77), and the byte-order helpers both use (00_scope.md R9,
20_memory.md R53).

The decoder follows R72 and R77: an opcode byte is split into cc, bbb and aaa, and a grid for each cc, with a row for each
bbb and a column for each aaa, gives the instruction and the shape of its operand. Every opcode byte decodes (R73, R80);
the only bytes the decoder turns away are lists that end before the instruction does.
-/
namespace Sys2Proof

/-- R9: `lo(v) = v[7:0]`. -/
def lo (v : Word) : Byte := v.setWidth 8

/-- R9: `hi(v) = v[15:8]`. -/
def hi (v : Word) : Byte := (v >>> 8).setWidth 8

/-- R9: `(h << 8) | l`. -/
def mkWord (h l : Byte) : Word := (h.setWidth 16 <<< 8) ||| l.setWidth 16

/-- The operand shape of an opcode (R70, R71) and the instruction it makes of its operand. -/
inductive Form where
  /-- No operand byte. -/
  | implied (i : Instr)
  /-- One operand byte: an immediate or a zero-page address. -/
  | byte (make : Byte → Instr)
  /-- One operand byte: a signed branch offset. -/
  | offset (make : Int → Instr)
  /-- Two operand bytes, the low one first (R53). -/
  | word (make : Word → Instr)

/-- One of eight, by the 3-bit field of an opcode. -/
def pickOf8 (n : Nat) (x0 x1 x2 x3 x4 x5 x6 x7 : Form) : Form :=
  match n with
  | 0 => x0
  | 1 => x1
  | 2 => x2
  | 3 => x3
  | 4 => x4
  | 5 => x5
  | 6 => x6
  | _ => x7

/-- R77, the grid of cc = 00: a row for each bbb, in it a column for each aaa. -/
def grid00 (bbb aaa : Nat) : Form :=
  pickOf8 bbb
    (pickOf8 aaa (.implied .brk) (.word .jsr) (.implied .rti) (.implied .rts)
      (.byte .nopImm80) (.byte .ldyImm) (.byte .cpyImm) (.byte .cpxImm))
    (pickOf8 aaa (.byte .nopZp04) (.byte .bitZp) (.byte .nopZp44) (.byte .nopZp64)
      (.byte .styZp) (.byte .ldyZp) (.byte .cpyZp) (.byte .cpxZp))
    (pickOf8 aaa (.implied .php) (.implied .plp) (.implied .pha) (.implied .pla)
      (.implied .dey) (.implied .tay) (.implied .iny) (.implied .inx))
    (pickOf8 aaa (.word .nopAbs0C) (.word .bitAbs) (.word .jmpAbs) (.word .jmpInd)
      (.word .styAbs) (.word .ldyAbs) (.word .cpyAbs) (.word .cpxAbs))
    (pickOf8 aaa (.offset .bpl) (.offset .bmi) (.offset .bvc) (.offset .bvs)
      (.offset .bcc) (.offset .bcs) (.offset .bne) (.offset .beq))
    (pickOf8 aaa (.byte .nopZpx14) (.byte .nopZpx34) (.byte .nopZpx54) (.byte .nopZpx74)
      (.byte .styZpx) (.byte .ldyZpx) (.byte .nopZpxD4) (.byte .nopZpxF4))
    (pickOf8 aaa (.implied .clc) (.implied .sec) (.implied .cli) (.implied .sei)
      (.implied .tya) (.implied .clv) (.implied .cld) (.implied .sed))
    (pickOf8 aaa (.word .nopAbx1C) (.word .nopAbx3C) (.word .nopAbx5C) (.word .nopAbx7C)
      (.word .shyAbx) (.word .ldyAbx) (.word .nopAbxDC) (.word .nopAbxFC))

/-- R77, the grid of cc = 01: a row for each bbb, in it a column for each aaa. -/
def grid01 (bbb aaa : Nat) : Form :=
  pickOf8 bbb
    (pickOf8 aaa (.byte .oraIdx) (.byte .andIdx) (.byte .eorIdx) (.byte .adcIdx)
      (.byte .staIdx) (.byte .ldaIdx) (.byte .cmpIdx) (.byte .sbcIdx))
    (pickOf8 aaa (.byte .oraZp) (.byte .andZp) (.byte .eorZp) (.byte .adcZp)
      (.byte .staZp) (.byte .ldaZp) (.byte .cmpZp) (.byte .sbcZp))
    (pickOf8 aaa (.byte .oraImm) (.byte .andImm) (.byte .eorImm) (.byte .adcImm)
      (.byte .nopImm89) (.byte .ldaImm) (.byte .cmpImm) (.byte .sbcImm))
    (pickOf8 aaa (.word .oraAbs) (.word .andAbs) (.word .eorAbs) (.word .adcAbs)
      (.word .staAbs) (.word .ldaAbs) (.word .cmpAbs) (.word .sbcAbs))
    (pickOf8 aaa (.byte .oraIdy) (.byte .andIdy) (.byte .eorIdy) (.byte .adcIdy)
      (.byte .staIdy) (.byte .ldaIdy) (.byte .cmpIdy) (.byte .sbcIdy))
    (pickOf8 aaa (.byte .oraZpx) (.byte .andZpx) (.byte .eorZpx) (.byte .adcZpx)
      (.byte .staZpx) (.byte .ldaZpx) (.byte .cmpZpx) (.byte .sbcZpx))
    (pickOf8 aaa (.word .oraAby) (.word .andAby) (.word .eorAby) (.word .adcAby)
      (.word .staAby) (.word .ldaAby) (.word .cmpAby) (.word .sbcAby))
    (pickOf8 aaa (.word .oraAbx) (.word .andAbx) (.word .eorAbx) (.word .adcAbx)
      (.word .staAbx) (.word .ldaAbx) (.word .cmpAbx) (.word .sbcAbx))

/-- R77, the grid of cc = 10: a row for each bbb, in it a column for each aaa. -/
def grid10 (bbb aaa : Nat) : Form :=
  pickOf8 bbb
    (pickOf8 aaa (.implied .jam02) (.implied .jam22) (.implied .jam42) (.implied .jam62)
      (.byte .nopImm82) (.byte .ldxImm) (.byte .nopImmC2) (.byte .nopImmE2))
    (pickOf8 aaa (.byte .aslZp) (.byte .rolZp) (.byte .lsrZp) (.byte .rorZp)
      (.byte .stxZp) (.byte .ldxZp) (.byte .decZp) (.byte .incZp))
    (pickOf8 aaa (.implied .aslA) (.implied .rolA) (.implied .lsrA) (.implied .rorA)
      (.implied .txa) (.implied .tax) (.implied .dex) (.implied .nopEA))
    (pickOf8 aaa (.word .aslAbs) (.word .rolAbs) (.word .lsrAbs) (.word .rorAbs)
      (.word .stxAbs) (.word .ldxAbs) (.word .decAbs) (.word .incAbs))
    (pickOf8 aaa (.implied .jam12) (.implied .jam32) (.implied .jam52) (.implied .jam72)
      (.implied .jam92) (.implied .jamB2) (.implied .jamD2) (.implied .jamF2))
    (pickOf8 aaa (.byte .aslZpx) (.byte .rolZpx) (.byte .lsrZpx) (.byte .rorZpx)
      (.byte .stxZpy) (.byte .ldxZpy) (.byte .decZpx) (.byte .incZpx))
    (pickOf8 aaa (.implied .nop1A) (.implied .nop3A) (.implied .nop5A) (.implied .nop7A)
      (.implied .txs) (.implied .tsx) (.implied .nopDA) (.implied .nopFA))
    (pickOf8 aaa (.word .aslAbx) (.word .rolAbx) (.word .lsrAbx) (.word .rorAbx)
      (.word .shxAby) (.word .ldxAby) (.word .decAbx) (.word .incAbx))

/-- R77, the grid of cc = 11: a row for each bbb, in it a column for each aaa. -/
def grid11 (bbb aaa : Nat) : Form :=
  pickOf8 bbb
    (pickOf8 aaa (.byte .sloIdx) (.byte .rlaIdx) (.byte .sreIdx) (.byte .rraIdx)
      (.byte .saxIdx) (.byte .laxIdx) (.byte .dcpIdx) (.byte .isbIdx))
    (pickOf8 aaa (.byte .sloZp) (.byte .rlaZp) (.byte .sreZp) (.byte .rraZp)
      (.byte .saxZp) (.byte .laxZp) (.byte .dcpZp) (.byte .isbZp))
    (pickOf8 aaa (.byte .ancImm0B) (.byte .ancImm2B) (.byte .asrImm) (.byte .arrImm)
      (.byte .aneImm) (.byte .lxaImm) (.byte .sbxImm) (.byte .sbcImmEB))
    (pickOf8 aaa (.word .sloAbs) (.word .rlaAbs) (.word .sreAbs) (.word .rraAbs)
      (.word .saxAbs) (.word .laxAbs) (.word .dcpAbs) (.word .isbAbs))
    (pickOf8 aaa (.byte .sloIdy) (.byte .rlaIdy) (.byte .sreIdy) (.byte .rraIdy)
      (.byte .shaIdy) (.byte .laxIdy) (.byte .dcpIdy) (.byte .isbIdy))
    (pickOf8 aaa (.byte .sloZpx) (.byte .rlaZpx) (.byte .sreZpx) (.byte .rraZpx)
      (.byte .saxZpy) (.byte .laxZpy) (.byte .dcpZpx) (.byte .isbZpx))
    (pickOf8 aaa (.word .sloAby) (.word .rlaAby) (.word .sreAby) (.word .rraAby)
      (.word .shsAby) (.word .lasAby) (.word .dcpAby) (.word .isbAby))
    (pickOf8 aaa (.word .sloAbx) (.word .rlaAbx) (.word .sreAbx) (.word .rraAbx)
      (.word .shaAby) (.word .laxAby) (.word .dcpAbx) (.word .isbAbx))

/-- R72: `cc = op & 3`. -/
def ccOf (op : Byte) : Nat := (op &&& 3).toNat

/-- R72: `bbb = (op >> 2) & 7`. -/
def bbbOf (op : Byte) : Nat := ((op >>> 2) &&& 7).toNat

/-- R72: `aaa = (op >> 5) & 7`. -/
def aaaOf (op : Byte) : Nat := ((op >>> 5) &&& 7).toNat

/-- R72, R77: the form of an opcode byte. -/
def formOf (op : Byte) : Form :=
  match ccOf op with
  | 0 => grid00 (bbbOf op) (aaaOf op)
  | 1 => grid01 (bbbOf op) (aaaOf op)
  | 2 => grid10 (bbbOf op) (aaaOf op)
  | _ => grid11 (bbbOf op) (aaaOf op)

/-- How many bytes an instruction of this form has (R70). -/
def Form.length : Form → Nat
  | .implied _ => 1
  | .byte _ => 2
  | .offset _ => 2
  | .word _ => 3

/-- The instruction of this form with operand bytes `b1` and `b2` (R71, R76). -/
def Form.instr (f : Form) (b1 b2 : Byte) : Instr :=
  match f with
  | .implied i => i
  | .byte make => make b1
  | .offset make => make b1.toInt
  | .word make => make (mkWord b2 b1)

/-- The instruction whose opcode byte is `op` and whose operand bytes, as many as it has, are `b1` and `b2`. Total: R73. -/
def decodeInstr (op b1 b2 : Byte) : Instr := (formOf op).instr b1 b2

/-- Why bytes are no instruction: no opcode byte, or fewer operand bytes than the opcode has. -/
inductive Reject where
  /-- There is no byte. -/
  | noOpcode
  /-- The bytes end before the operand of this opcode does. -/
  | truncated (op : Byte)
  deriving DecidableEq, Repr

/-- What the decoder answers. -/
inductive Decoded where
  /-- An instruction, and the bytes after it. -/
  | ok (i : Instr) (rest : List Byte)
  /-- No instruction, and why. -/
  | reject (why : Reject)
  deriving DecidableEq, Repr

/-- Decode the instruction at the head of a list of bytes (R70-R77). -/
def decode (bytes : List Byte) : Decoded :=
  match bytes with
  | [] => .reject .noOpcode
  | op :: rest =>
    match formOf op, rest with
    | .implied i, rest => .ok i rest
    | .byte make, b1 :: rest => .ok (make b1) rest
    | .offset make, b1 :: rest => .ok (make b1.toInt) rest
    | .word make, b1 :: b2 :: rest => .ok (make (mkWord b2 b1)) rest
    | .byte _, [] => .reject (.truncated op)
    | .offset _, [] => .reject (.truncated op)
    | .word _, [] => .reject (.truncated op)
    | .word _, [_] => .reject (.truncated op)

/-- The opcode byte of an instruction (R85). -/
def Instr.opcode (i : Instr) : Byte :=
  match i with
  | .brk => 0x00
  | .oraIdx _ => 0x01
  | .jam02 => 0x02
  | .sloIdx _ => 0x03
  | .nopZp04 _ => 0x04
  | .oraZp _ => 0x05
  | .aslZp _ => 0x06
  | .sloZp _ => 0x07
  | .php => 0x08
  | .oraImm _ => 0x09
  | .aslA => 0x0A
  | .ancImm0B _ => 0x0B
  | .nopAbs0C _ => 0x0C
  | .oraAbs _ => 0x0D
  | .aslAbs _ => 0x0E
  | .sloAbs _ => 0x0F
  | .bpl _ => 0x10
  | .oraIdy _ => 0x11
  | .jam12 => 0x12
  | .sloIdy _ => 0x13
  | .nopZpx14 _ => 0x14
  | .oraZpx _ => 0x15
  | .aslZpx _ => 0x16
  | .sloZpx _ => 0x17
  | .clc => 0x18
  | .oraAby _ => 0x19
  | .nop1A => 0x1A
  | .sloAby _ => 0x1B
  | .nopAbx1C _ => 0x1C
  | .oraAbx _ => 0x1D
  | .aslAbx _ => 0x1E
  | .sloAbx _ => 0x1F
  | .jsr _ => 0x20
  | .andIdx _ => 0x21
  | .jam22 => 0x22
  | .rlaIdx _ => 0x23
  | .bitZp _ => 0x24
  | .andZp _ => 0x25
  | .rolZp _ => 0x26
  | .rlaZp _ => 0x27
  | .plp => 0x28
  | .andImm _ => 0x29
  | .rolA => 0x2A
  | .ancImm2B _ => 0x2B
  | .bitAbs _ => 0x2C
  | .andAbs _ => 0x2D
  | .rolAbs _ => 0x2E
  | .rlaAbs _ => 0x2F
  | .bmi _ => 0x30
  | .andIdy _ => 0x31
  | .jam32 => 0x32
  | .rlaIdy _ => 0x33
  | .nopZpx34 _ => 0x34
  | .andZpx _ => 0x35
  | .rolZpx _ => 0x36
  | .rlaZpx _ => 0x37
  | .sec => 0x38
  | .andAby _ => 0x39
  | .nop3A => 0x3A
  | .rlaAby _ => 0x3B
  | .nopAbx3C _ => 0x3C
  | .andAbx _ => 0x3D
  | .rolAbx _ => 0x3E
  | .rlaAbx _ => 0x3F
  | .rti => 0x40
  | .eorIdx _ => 0x41
  | .jam42 => 0x42
  | .sreIdx _ => 0x43
  | .nopZp44 _ => 0x44
  | .eorZp _ => 0x45
  | .lsrZp _ => 0x46
  | .sreZp _ => 0x47
  | .pha => 0x48
  | .eorImm _ => 0x49
  | .lsrA => 0x4A
  | .asrImm _ => 0x4B
  | .jmpAbs _ => 0x4C
  | .eorAbs _ => 0x4D
  | .lsrAbs _ => 0x4E
  | .sreAbs _ => 0x4F
  | .bvc _ => 0x50
  | .eorIdy _ => 0x51
  | .jam52 => 0x52
  | .sreIdy _ => 0x53
  | .nopZpx54 _ => 0x54
  | .eorZpx _ => 0x55
  | .lsrZpx _ => 0x56
  | .sreZpx _ => 0x57
  | .cli => 0x58
  | .eorAby _ => 0x59
  | .nop5A => 0x5A
  | .sreAby _ => 0x5B
  | .nopAbx5C _ => 0x5C
  | .eorAbx _ => 0x5D
  | .lsrAbx _ => 0x5E
  | .sreAbx _ => 0x5F
  | .rts => 0x60
  | .adcIdx _ => 0x61
  | .jam62 => 0x62
  | .rraIdx _ => 0x63
  | .nopZp64 _ => 0x64
  | .adcZp _ => 0x65
  | .rorZp _ => 0x66
  | .rraZp _ => 0x67
  | .pla => 0x68
  | .adcImm _ => 0x69
  | .rorA => 0x6A
  | .arrImm _ => 0x6B
  | .jmpInd _ => 0x6C
  | .adcAbs _ => 0x6D
  | .rorAbs _ => 0x6E
  | .rraAbs _ => 0x6F
  | .bvs _ => 0x70
  | .adcIdy _ => 0x71
  | .jam72 => 0x72
  | .rraIdy _ => 0x73
  | .nopZpx74 _ => 0x74
  | .adcZpx _ => 0x75
  | .rorZpx _ => 0x76
  | .rraZpx _ => 0x77
  | .sei => 0x78
  | .adcAby _ => 0x79
  | .nop7A => 0x7A
  | .rraAby _ => 0x7B
  | .nopAbx7C _ => 0x7C
  | .adcAbx _ => 0x7D
  | .rorAbx _ => 0x7E
  | .rraAbx _ => 0x7F
  | .nopImm80 _ => 0x80
  | .staIdx _ => 0x81
  | .nopImm82 _ => 0x82
  | .saxIdx _ => 0x83
  | .styZp _ => 0x84
  | .staZp _ => 0x85
  | .stxZp _ => 0x86
  | .saxZp _ => 0x87
  | .dey => 0x88
  | .nopImm89 _ => 0x89
  | .txa => 0x8A
  | .aneImm _ => 0x8B
  | .styAbs _ => 0x8C
  | .staAbs _ => 0x8D
  | .stxAbs _ => 0x8E
  | .saxAbs _ => 0x8F
  | .bcc _ => 0x90
  | .staIdy _ => 0x91
  | .jam92 => 0x92
  | .shaIdy _ => 0x93
  | .styZpx _ => 0x94
  | .staZpx _ => 0x95
  | .stxZpy _ => 0x96
  | .saxZpy _ => 0x97
  | .tya => 0x98
  | .staAby _ => 0x99
  | .txs => 0x9A
  | .shsAby _ => 0x9B
  | .shyAbx _ => 0x9C
  | .staAbx _ => 0x9D
  | .shxAby _ => 0x9E
  | .shaAby _ => 0x9F
  | .ldyImm _ => 0xA0
  | .ldaIdx _ => 0xA1
  | .ldxImm _ => 0xA2
  | .laxIdx _ => 0xA3
  | .ldyZp _ => 0xA4
  | .ldaZp _ => 0xA5
  | .ldxZp _ => 0xA6
  | .laxZp _ => 0xA7
  | .tay => 0xA8
  | .ldaImm _ => 0xA9
  | .tax => 0xAA
  | .lxaImm _ => 0xAB
  | .ldyAbs _ => 0xAC
  | .ldaAbs _ => 0xAD
  | .ldxAbs _ => 0xAE
  | .laxAbs _ => 0xAF
  | .bcs _ => 0xB0
  | .ldaIdy _ => 0xB1
  | .jamB2 => 0xB2
  | .laxIdy _ => 0xB3
  | .ldyZpx _ => 0xB4
  | .ldaZpx _ => 0xB5
  | .ldxZpy _ => 0xB6
  | .laxZpy _ => 0xB7
  | .clv => 0xB8
  | .ldaAby _ => 0xB9
  | .tsx => 0xBA
  | .lasAby _ => 0xBB
  | .ldyAbx _ => 0xBC
  | .ldaAbx _ => 0xBD
  | .ldxAby _ => 0xBE
  | .laxAby _ => 0xBF
  | .cpyImm _ => 0xC0
  | .cmpIdx _ => 0xC1
  | .nopImmC2 _ => 0xC2
  | .dcpIdx _ => 0xC3
  | .cpyZp _ => 0xC4
  | .cmpZp _ => 0xC5
  | .decZp _ => 0xC6
  | .dcpZp _ => 0xC7
  | .iny => 0xC8
  | .cmpImm _ => 0xC9
  | .dex => 0xCA
  | .sbxImm _ => 0xCB
  | .cpyAbs _ => 0xCC
  | .cmpAbs _ => 0xCD
  | .decAbs _ => 0xCE
  | .dcpAbs _ => 0xCF
  | .bne _ => 0xD0
  | .cmpIdy _ => 0xD1
  | .jamD2 => 0xD2
  | .dcpIdy _ => 0xD3
  | .nopZpxD4 _ => 0xD4
  | .cmpZpx _ => 0xD5
  | .decZpx _ => 0xD6
  | .dcpZpx _ => 0xD7
  | .cld => 0xD8
  | .cmpAby _ => 0xD9
  | .nopDA => 0xDA
  | .dcpAby _ => 0xDB
  | .nopAbxDC _ => 0xDC
  | .cmpAbx _ => 0xDD
  | .decAbx _ => 0xDE
  | .dcpAbx _ => 0xDF
  | .cpxImm _ => 0xE0
  | .sbcIdx _ => 0xE1
  | .nopImmE2 _ => 0xE2
  | .isbIdx _ => 0xE3
  | .cpxZp _ => 0xE4
  | .sbcZp _ => 0xE5
  | .incZp _ => 0xE6
  | .isbZp _ => 0xE7
  | .inx => 0xE8
  | .sbcImm _ => 0xE9
  | .nopEA => 0xEA
  | .sbcImmEB _ => 0xEB
  | .cpxAbs _ => 0xEC
  | .sbcAbs _ => 0xED
  | .incAbs _ => 0xEE
  | .isbAbs _ => 0xEF
  | .beq _ => 0xF0
  | .sbcIdy _ => 0xF1
  | .jamF2 => 0xF2
  | .isbIdy _ => 0xF3
  | .nopZpxF4 _ => 0xF4
  | .sbcZpx _ => 0xF5
  | .incZpx _ => 0xF6
  | .isbZpx _ => 0xF7
  | .sed => 0xF8
  | .sbcAby _ => 0xF9
  | .nopFA => 0xFA
  | .isbAby _ => 0xFB
  | .nopAbxFC _ => 0xFC
  | .sbcAbx _ => 0xFD
  | .incAbx _ => 0xFE
  | .isbAbx _ => 0xFF

/-- R83: the offset byte of a branch. -/
def offsetByte (o : Int) : Byte := BitVec.ofInt 8 o

/-- The two operand bytes of an address, the low byte at the lower address (R53, R71). -/
def wordBytes (a : Word) : List Byte := [lo a, hi a]

/-- The operand bytes of an instruction (R71). -/
def Instr.operandBytes (i : Instr) : List Byte :=
  match i with
  | .brk => []
  | .oraIdx n => [n]
  | .jam02 => []
  | .sloIdx n => [n]
  | .nopZp04 n => [n]
  | .oraZp n => [n]
  | .aslZp n => [n]
  | .sloZp n => [n]
  | .php => []
  | .oraImm n => [n]
  | .aslA => []
  | .ancImm0B n => [n]
  | .nopAbs0C a => wordBytes a
  | .oraAbs a => wordBytes a
  | .aslAbs a => wordBytes a
  | .sloAbs a => wordBytes a
  | .bpl o => [offsetByte o]
  | .oraIdy n => [n]
  | .jam12 => []
  | .sloIdy n => [n]
  | .nopZpx14 n => [n]
  | .oraZpx n => [n]
  | .aslZpx n => [n]
  | .sloZpx n => [n]
  | .clc => []
  | .oraAby a => wordBytes a
  | .nop1A => []
  | .sloAby a => wordBytes a
  | .nopAbx1C a => wordBytes a
  | .oraAbx a => wordBytes a
  | .aslAbx a => wordBytes a
  | .sloAbx a => wordBytes a
  | .jsr a => wordBytes a
  | .andIdx n => [n]
  | .jam22 => []
  | .rlaIdx n => [n]
  | .bitZp n => [n]
  | .andZp n => [n]
  | .rolZp n => [n]
  | .rlaZp n => [n]
  | .plp => []
  | .andImm n => [n]
  | .rolA => []
  | .ancImm2B n => [n]
  | .bitAbs a => wordBytes a
  | .andAbs a => wordBytes a
  | .rolAbs a => wordBytes a
  | .rlaAbs a => wordBytes a
  | .bmi o => [offsetByte o]
  | .andIdy n => [n]
  | .jam32 => []
  | .rlaIdy n => [n]
  | .nopZpx34 n => [n]
  | .andZpx n => [n]
  | .rolZpx n => [n]
  | .rlaZpx n => [n]
  | .sec => []
  | .andAby a => wordBytes a
  | .nop3A => []
  | .rlaAby a => wordBytes a
  | .nopAbx3C a => wordBytes a
  | .andAbx a => wordBytes a
  | .rolAbx a => wordBytes a
  | .rlaAbx a => wordBytes a
  | .rti => []
  | .eorIdx n => [n]
  | .jam42 => []
  | .sreIdx n => [n]
  | .nopZp44 n => [n]
  | .eorZp n => [n]
  | .lsrZp n => [n]
  | .sreZp n => [n]
  | .pha => []
  | .eorImm n => [n]
  | .lsrA => []
  | .asrImm n => [n]
  | .jmpAbs a => wordBytes a
  | .eorAbs a => wordBytes a
  | .lsrAbs a => wordBytes a
  | .sreAbs a => wordBytes a
  | .bvc o => [offsetByte o]
  | .eorIdy n => [n]
  | .jam52 => []
  | .sreIdy n => [n]
  | .nopZpx54 n => [n]
  | .eorZpx n => [n]
  | .lsrZpx n => [n]
  | .sreZpx n => [n]
  | .cli => []
  | .eorAby a => wordBytes a
  | .nop5A => []
  | .sreAby a => wordBytes a
  | .nopAbx5C a => wordBytes a
  | .eorAbx a => wordBytes a
  | .lsrAbx a => wordBytes a
  | .sreAbx a => wordBytes a
  | .rts => []
  | .adcIdx n => [n]
  | .jam62 => []
  | .rraIdx n => [n]
  | .nopZp64 n => [n]
  | .adcZp n => [n]
  | .rorZp n => [n]
  | .rraZp n => [n]
  | .pla => []
  | .adcImm n => [n]
  | .rorA => []
  | .arrImm n => [n]
  | .jmpInd a => wordBytes a
  | .adcAbs a => wordBytes a
  | .rorAbs a => wordBytes a
  | .rraAbs a => wordBytes a
  | .bvs o => [offsetByte o]
  | .adcIdy n => [n]
  | .jam72 => []
  | .rraIdy n => [n]
  | .nopZpx74 n => [n]
  | .adcZpx n => [n]
  | .rorZpx n => [n]
  | .rraZpx n => [n]
  | .sei => []
  | .adcAby a => wordBytes a
  | .nop7A => []
  | .rraAby a => wordBytes a
  | .nopAbx7C a => wordBytes a
  | .adcAbx a => wordBytes a
  | .rorAbx a => wordBytes a
  | .rraAbx a => wordBytes a
  | .nopImm80 n => [n]
  | .staIdx n => [n]
  | .nopImm82 n => [n]
  | .saxIdx n => [n]
  | .styZp n => [n]
  | .staZp n => [n]
  | .stxZp n => [n]
  | .saxZp n => [n]
  | .dey => []
  | .nopImm89 n => [n]
  | .txa => []
  | .aneImm n => [n]
  | .styAbs a => wordBytes a
  | .staAbs a => wordBytes a
  | .stxAbs a => wordBytes a
  | .saxAbs a => wordBytes a
  | .bcc o => [offsetByte o]
  | .staIdy n => [n]
  | .jam92 => []
  | .shaIdy n => [n]
  | .styZpx n => [n]
  | .staZpx n => [n]
  | .stxZpy n => [n]
  | .saxZpy n => [n]
  | .tya => []
  | .staAby a => wordBytes a
  | .txs => []
  | .shsAby a => wordBytes a
  | .shyAbx a => wordBytes a
  | .staAbx a => wordBytes a
  | .shxAby a => wordBytes a
  | .shaAby a => wordBytes a
  | .ldyImm n => [n]
  | .ldaIdx n => [n]
  | .ldxImm n => [n]
  | .laxIdx n => [n]
  | .ldyZp n => [n]
  | .ldaZp n => [n]
  | .ldxZp n => [n]
  | .laxZp n => [n]
  | .tay => []
  | .ldaImm n => [n]
  | .tax => []
  | .lxaImm n => [n]
  | .ldyAbs a => wordBytes a
  | .ldaAbs a => wordBytes a
  | .ldxAbs a => wordBytes a
  | .laxAbs a => wordBytes a
  | .bcs o => [offsetByte o]
  | .ldaIdy n => [n]
  | .jamB2 => []
  | .laxIdy n => [n]
  | .ldyZpx n => [n]
  | .ldaZpx n => [n]
  | .ldxZpy n => [n]
  | .laxZpy n => [n]
  | .clv => []
  | .ldaAby a => wordBytes a
  | .tsx => []
  | .lasAby a => wordBytes a
  | .ldyAbx a => wordBytes a
  | .ldaAbx a => wordBytes a
  | .ldxAby a => wordBytes a
  | .laxAby a => wordBytes a
  | .cpyImm n => [n]
  | .cmpIdx n => [n]
  | .nopImmC2 n => [n]
  | .dcpIdx n => [n]
  | .cpyZp n => [n]
  | .cmpZp n => [n]
  | .decZp n => [n]
  | .dcpZp n => [n]
  | .iny => []
  | .cmpImm n => [n]
  | .dex => []
  | .sbxImm n => [n]
  | .cpyAbs a => wordBytes a
  | .cmpAbs a => wordBytes a
  | .decAbs a => wordBytes a
  | .dcpAbs a => wordBytes a
  | .bne o => [offsetByte o]
  | .cmpIdy n => [n]
  | .jamD2 => []
  | .dcpIdy n => [n]
  | .nopZpxD4 n => [n]
  | .cmpZpx n => [n]
  | .decZpx n => [n]
  | .dcpZpx n => [n]
  | .cld => []
  | .cmpAby a => wordBytes a
  | .nopDA => []
  | .dcpAby a => wordBytes a
  | .nopAbxDC a => wordBytes a
  | .cmpAbx a => wordBytes a
  | .decAbx a => wordBytes a
  | .dcpAbx a => wordBytes a
  | .cpxImm n => [n]
  | .sbcIdx n => [n]
  | .nopImmE2 n => [n]
  | .isbIdx n => [n]
  | .cpxZp n => [n]
  | .sbcZp n => [n]
  | .incZp n => [n]
  | .isbZp n => [n]
  | .inx => []
  | .sbcImm n => [n]
  | .nopEA => []
  | .sbcImmEB n => [n]
  | .cpxAbs a => wordBytes a
  | .sbcAbs a => wordBytes a
  | .incAbs a => wordBytes a
  | .isbAbs a => wordBytes a
  | .beq o => [offsetByte o]
  | .sbcIdy n => [n]
  | .jamF2 => []
  | .isbIdy n => [n]
  | .nopZpxF4 n => [n]
  | .sbcZpx n => [n]
  | .incZpx n => [n]
  | .isbZpx n => [n]
  | .sed => []
  | .sbcAby a => wordBytes a
  | .nopFA => []
  | .isbAby a => wordBytes a
  | .nopAbxFC a => wordBytes a
  | .sbcAbx a => wordBytes a
  | .incAbx a => wordBytes a
  | .isbAbx a => wordBytes a

/-- The bytes of an instruction: its opcode, then its operand (R70, R71). -/
def encode (i : Instr) : List Byte := i.opcode :: i.operandBytes

/-- A number's three low bytes, the lowest first: how the opcode table's bits lie in memory (R53, R70). -/
def tableBytes (nbits w : Nat) : Byte × Byte × Byte :=
  let v := w % 2 ^ nbits
  (BitVec.ofNat 8 v, BitVec.ofNat 8 (v / 256), BitVec.ofNat 8 (v / 65536))

/-- The instruction the decoder reads from the bytes of an opcode-table word; every bit above `nbits` is 0. -/
def decodeTableWord (nbits w : Nat) : Option Instr :=
  match tableBytes nbits w with
  | (b0, b1, b2) =>
    match decode [b0, b1, b2] with
    | .ok i _ => some i
    | .reject _ => none

end Sys2Proof
end

