-- ==== Sys2Proof/Config.lean ====
section
/-!
DEFINITION. The parameters of the core (00_scope.md R7): what the spec leaves to the implementation or calls
unstable. Each is a constant with no body, so nothing proved here can depend on its value; PowerOn, which the spec makes an
argument of construction, stands in Machine/State.lean.
-/
namespace Sys2Proof

/-- What an add, a subtract or ARR gives: the byte for A and the four flags it writes (41_alu.md R142-R145, R151, R152). -/
structure AluResult where
  /-- The result byte. -/
  r : Byte
  /-- The negative flag. -/
  n : Bool
  /-- The overflow flag. -/
  v : Bool
  /-- The zero flag. -/
  z : Bool
  /-- The carry flag. -/
  c : Bool
  deriving DecidableEq, Repr, Inhabited

/-- The operations that have decimal forms (R146). The opcode 0xEB is SBC in every respect (45_undocumented.md R281). -/
inductive DecimalOp where
  | adc
  | sbc
  | rra
  | isb
  | arr
  deriving DecidableEq, Repr

/-- The stores whose byte is unstable (45_undocumented.md R275). -/
inductive UnstableOp where
  | sha
  | shx
  | shy
  | shs
  deriving DecidableEq, Repr

namespace Config

/-- `MagicANE` (R272): the constant ANE ORs into A. -/
opaque magicAne : Byte

/-- `MagicLXA` (R273): the constant LXA ORs into A. -/
opaque magicLxa : Byte

/-- `UnstableStore(op, A, X, Y, S, base, index)` (R275): the byte SHA, SHX, SHY and SHS store. -/
opaque unstableStore (op : UnstableOp) (a x y s : Byte) (base : Word) (index : Byte) : Byte

/-- `DecimalInvalid(op, a, m, c)` (R146): the result of a decimal operation with an operand that is no BCD number. -/
opaque decimalInvalid (op : DecimalOp) (a m : Byte) (c : Bool) : AluResult

/-- `JamResExits` (60_exceptions.md R326): whether RES leaves the JAM state. -/
opaque jamResExits : Bool

/-- `RdyShiftsNmi` (40_execution.md R104): whether an RDY stall shifts the NMI pipeline. -/
opaque rdyShiftsNmi : Bool

end Config

end Sys2Proof
end

