-- ==== Sys2Proof/Machine/State.lean ====
section
/-!
DEFINITION. The state of the machine: the core of 10_state.md, the plain RAM it runs against (20_memory.md R52) and the
schedule of its input lines; why a step may stop (never); construction and reset.
-/
namespace Sys2Proof.Machine

/-- Memory: the bytes that differ from `Memory.blank`, by address, the addresses strictly rising (20_memory.md R50, R52). -/
abbrev Memory := List Host.Cell

/-- The flags of P (10_state.md R24). -/
inductive Flag where
  /-- Carry. -/
  | c
  /-- Zero. -/
  | z
  /-- Interrupt disable. -/
  | i
  /-- Decimal. -/
  | d
  /-- Break. -/
  | b
  /-- The unused bit. -/
  | x5
  /-- Overflow. -/
  | v
  /-- Negative. -/
  | n
  deriving DecidableEq, Repr

/-- The levels of the request and ready lines during one tick; true is asserted (10_state.md R38). -/
structure Lines where
  /-- The interrupt request line: level-sensitive, masked by P.I (60_exceptions.md R302). -/
  irq : Bool
  /-- The non-maskable interrupt line: edge-sensitive (R302). -/
  nmi : Bool
  /-- The reset line (R302). -/
  res : Bool
  /-- The ready line: asserted, it stalls read cycles (40_execution.md R104). -/
  rdy : Bool
  deriving DecidableEq, Repr

/-- No line asserted. -/
def Lines.idle : Lines := { irq := false, nmi := false, res := false, rdy := false }

/-- The inputs of one tick: the byte the external bus returns, and the lines (40_execution.md R100). -/
structure Input where
  /-- The data bus value the external bus returns on a read cycle. -/
  din : Byte
  /-- The lines. -/
  lines : Lines
  deriving DecidableEq, Repr

/-- The pending-interrupt set brk_flags, over IRQ, NMI and RESET (10_state.md R35). -/
structure BrkFlags where
  /-- IRQ is in the set. -/
  irq : Bool
  /-- NMI is in the set. -/
  nmi : Bool
  /-- RESET is in the set. -/
  res : Bool
  deriving DecidableEq, Repr

/-- The empty set: a BRK, or no sequence under way. -/
def BrkFlags.empty : BrkFlags := { irq := false, nmi := false, res := false }

/-- The set has a member. -/
def BrkFlags.any (f : BrkFlags) : Bool := f.irq || f.nmi || f.res

/-- The interrupt detection state (10_state.md R36, R37). -/
structure Intr where
  /-- irq_pip, the shift register of IRQ samples. -/
  irqPip : Word
  /-- nmi_pip, the shift register of NMI edges. -/
  nmiPip : Word
  /-- nmi_prev, the level of the NMI line at the previous tick. -/
  nmiPrev : Bool
  /-- res_latch, RES was asserted since the last instruction boundary. -/
  resLatch : Bool
  deriving DecidableEq, Repr

/-- The machine's state. -/
structure State where
  /-- A, the accumulator (R21). -/
  a : Byte
  /-- X, an index register (R22). -/
  x : Byte
  /-- Y, an index register (R22). -/
  y : Byte
  /-- S, the stack pointer (R23). -/
  sp : Byte
  /-- P, the status register, its flags at the bits of `Flag.bit` (R24). -/
  p : Byte
  /-- PC, the program counter (R32). -/
  pc : Word
  /-- AD, the scratch address register (R33). -/
  ad : Word
  /-- IR, `(opcode << 3) | sub_cycle` (00_scope.md R6, R34). -/
  ir : BitVec 11
  /-- brk_flags (R35). -/
  brk : BrkFlags
  /-- The interrupt pipelines and latches (R36, R37). -/
  intr : Intr
  /-- The address pins (R38). -/
  addr : Word
  /-- The data pins (R38). -/
  dout : Byte
  /-- The read/write pin: true is a write (R38). -/
  rw : Bool
  /-- The opcode-fetch pin (R38). -/
  sync : Bool
  /-- The platform's RAM (20_memory.md R52). -/
  mem : Memory
  /-- The lines' levels on the coming ticks, oldest first; no line is asserted after the last. The model's own field: it
  holds the input lines of R38 and R100 as plain data. -/
  lines : List Lines
  deriving DecidableEq, Repr

/-- Why a step may end in a fault: for no reason, since the core has no fault (40_execution.md R127, R300). -/
inductive Fault where
  deriving DecidableEq, Repr

/-- Why a step may be refused. -/
inductive Refusal where
  /-- Raised by an arm of `exec` that has no meaning yet; safe. No arm raises it now. -/
  | notModelled (mnemonic : String)
  deriving DecidableEq, Repr

/-- What a step answers. -/
abbrev Result := Host.Outcome State Fault Refusal

/-- `PowerOn`: the registers at construction, a draw with no law (10_state.md R45, 00_scope.md R7). -/
structure PowerOn where
  /-- A. -/
  a : Byte
  /-- X. -/
  x : Byte
  /-- Y. -/
  y : Byte
  /-- S. -/
  sp : Byte
  /-- PC. -/
  pc : Word
  /-- P. -/
  p : Byte
  deriving DecidableEq, Repr

/-- A newly constructed core on a platform with this memory and these lines (10_state.md R45): its first tick enters the
RESET sequence (R42). -/
def State.construct (po : PowerOn) (mem : Memory) (lines : List Lines) : State :=
  { a := po.a, x := po.x, y := po.y, sp := po.sp, p := po.p, pc := po.pc, ad := 0, ir := 0, brk := BrkFlags.empty,
    intr := { irqPip := 0, nmiPip := 0, nmiPrev := false, resLatch := true },
    addr := po.pc, dout := 0, rw := false, sync := true, mem := mem, lines := lines }

/-- `PowerOn` all zero, which a deterministic simulator may take (R45). DESIGN CHOICE, log entry 1: unsafe. -/
def PowerOn.zero : PowerOn := { a := 0, x := 0, y := 0, sp := 0, pc := 0, p := 0 }

/-- The machine right after the RESET sequence (10_state.md R40, R41) of a core constructed with `PowerOn.zero` (log entry 1)
over memory that lists nothing (log entry 2), no line asserted (log entry 4): S is 0 - 3, P.I = P.B = 1, PC is the word at
0xFFFC, the first opcode fetch is set up. `test_construction_resets_to_reset` runs the sequence to it. -/
def State.reset : State :=
  { a := 0, x := 0, y := 0, sp := 0xFD, p := 0x14, pc := 0, ad := 0, ir := 7, brk := BrkFlags.empty,
    intr := { irqPip := 0, nmiPip := 0, nmiPrev := false, resLatch := false },
    addr := 0, dout := 0, rw := false, sync := true, mem := [], lines := [] }

end Sys2Proof.Machine
end

