-- ==== Sys2Proof/Machine/Ops.lean ====
section
/-!
DEFINITION. The named operations over memory, flags, pins and stack; taking an interrupt, as the ticks of the one sequence that
BRK, IRQ, NMI and RESET share (60_exceptions.md R307-R313); and, beside it, the return from one (44_control_stack.md R238).

An `Action` is what the tick of one sub-cycle does to the state (00_scope.md R12); a microprogram is a list of them, by sub-cycle.
-/
namespace Sys2Proof.Machine

/-! ### Memory -/

/-- What an address that memory does not list reads as. DESIGN CHOICE, log entry 2: unsafe. -/
def Memory.blank (_address : Nat) : Byte := 0

/-- The byte at an address (20_memory.md R51, R52). -/
def Memory.read : Memory → Nat → Byte
  | [], k => Memory.blank k
  | (j, w) :: m, k => if j = k then w else Memory.read m k

/-- Put a cell before memory, unless an unlisted address reads as its byte already. -/
def Memory.cell (k : Nat) (v : Byte) (m : Memory) : Memory :=
  if v = Memory.blank k then m else (k, v) :: m

/-- Store a byte at an address (20_memory.md R51, R52), keeping the canonical form. -/
def Memory.write : Memory → Nat → Byte → Memory
  | [], k, v => Memory.cell k v []
  | (j, w) :: m, k, v =>
    if k < j then Memory.cell k v ((j, w) :: m)
    else if k = j then Memory.cell k v m
    else (j, w) :: Memory.write m k v

/-- The canonical form: addresses strictly rising and inside the address space (R50), no cell that reads as a blank one. -/
abbrev Memory.wf (m : Memory) : Prop :=
  List.Pairwise (fun j k : Host.Cell => j.1 < k.1) m ∧ ∀ k ∈ m, k.1 < 65536 ∧ k.2 ≠ Memory.blank k.1

/-- `MemRead(a, 1)` (00_scope.md R11). -/
def State.readByte (s : State) (k : Word) : Byte := s.mem.read k.toNat

/-! ### Flags -/

/-- The bit of P a flag has (10_state.md R24). -/
def Flag.bit : Flag → Nat
  | .c => 0
  | .z => 1
  | .i => 2
  | .d => 3
  | .b => 4
  | .x5 => 5
  | .v => 6
  | .n => 7

/-- A flag of a status byte. -/
def getFlag (p : Byte) (f : Flag) : Bool := p.getLsbD f.bit

/-- A status byte with one flag written and the others kept. -/
def setFlag (p : Byte) (f : Flag) (v : Bool) : Byte :=
  let mask : Byte := 1 <<< f.bit
  if v then p ||| mask else p &&& ~~~mask

/-- A flag of P (00_scope.md R10). -/
def State.flag (s : State) (f : Flag) : Bool := getFlag s.p f

/-- `P.f <- v` (00_scope.md R10). -/
def State.withFlag (s : State) (f : Flag) (v : Bool) : State := { s with p := setFlag s.p f v }

/-- The byte a push of P stores: bit 5 is set, B is as stored (10_state.md R30, R31). -/
def pushedStatus (p : Byte) : Byte := p ||| 0x20

/-- What PLP and RTI store in P: B set and bit 5 cleared, whatever the pulled byte holds (10_state.md R30, R31). -/
def pulledStatus (v : Byte) : Byte := (v ||| 0x10) &&& ~~~0x20

/-! ### Actions and pins -/

/-- What the action of a tick sees beside the state: the data bus byte of the cycle just completed (40_execution.md R101), and
whether RES is asserted (60_exceptions.md R326). -/
structure Seen where
  /-- `Dbus`. -/
  dbus : Byte
  /-- `in.res`. -/
  res : Bool
  deriving DecidableEq, Repr

/-- The action of one sub-cycle. -/
abbrev Action := Seen → State → State

/-- `FETCH` (40_execution.md R122): set up the read of the next opcode. -/
def State.fetch (s : State) : State := { s with addr := s.pc, sync := true }

/-- `addr <- PC` (a dummy read, or an operand read that does not step PC). -/
def State.readAtPc (s : State) : State := { s with addr := s.pc }

/-- `addr <- PC; PC <- PC + 1`, the read of an operand byte (10_state.md R32). -/
def State.readOperand (s : State) : State := { s with addr := s.pc, pc := s.pc + 1 }

/-- `dout <- v; WR`: drive a byte and mark the cycle as a write (00_scope.md R11). -/
def State.drive (v : Byte) (s : State) : State := { s with dout := v, rw := true }

/-- `(zext_16(h) << 8) | w`: a high byte over the low byte a scratch word holds. -/
def highOver (h : Byte) (w : Word) : Word := (zext16 h <<< 8) ||| w

/-- The tick that performs `FETCH` alone (40_execution.md R109). -/
def fetchTick : Action := fun _ s => s.fetch

/-! ### The stack -/

/-- `0x0100 | S` (10_state.md R23). -/
def stackAddr (sp : Byte) : Word := 0x0100 ||| zext16 sp

/-- `addr <- 0x0100 | S`, a read on the stack that does not move S. -/
def State.readStack (s : State) : State := { s with addr := stackAddr s.sp }

/-- `addr <- 0x0100 | S; S <- S + 1`, the first half of a pull. -/
def State.stepStack (s : State) : State := { s with addr := stackAddr s.sp, sp := s.sp + 1 }

/-- `addr <- 0x0100 | S; dout <- v; S <- S - 1`, a push whose cycle is not yet marked as a write. -/
def State.pushUnwritten (v : Byte) (s : State) : State :=
  { s with addr := stackAddr s.sp, dout := v, sp := s.sp - 1 }

/-- `addr <- 0x0100 | S; dout <- v; S <- S - 1; WR`, a push. -/
def State.push (v : Byte) (s : State) : State := { s.pushUnwritten v with rw := true }

/-- A push of the interrupt sequence, which RESET suppresses: the address is driven, the write line is not asserted
(60_exceptions.md R315). -/
def State.pushUnlessReset (v : Byte) (s : State) : State :=
  if s.brk.res then s.pushUnwritten v else s.push v

/-! ### Taking an interrupt, and returning from one -/

/-- The address of the vector's low byte: RESET over NMI over IRQ and BRK (60_exceptions.md R310, R314, R319). -/
def vectorAddr (f : BrkFlags) : Word :=
  if f.res then 0xFFFC else if f.nmi then 0xFFFA else 0xFFFE

/-- T1 (R308): BRK and RESET step over the padding byte; push PC high. -/
def pushPcHighTick : Action := fun _ s =>
  let s := if !s.brk.irq && !s.brk.nmi then { s with pc := s.pc + 1 } else s
  s.pushUnlessReset (hi s.pc)

/-- T2 (R309): push PC low. -/
def pushPcLowTick : Action := fun _ s => s.pushUnlessReset (lo s.pc)

/-- T3 (R310): push P and select the vector. -/
def pushStatusTick : Action := fun _ s => { s.pushUnlessReset (pushedStatus s.p) with ad := vectorAddr s.brk }

/-- T4 (R311): read the vector's low byte; mask; the set is consumed. -/
def vectorLowTick : Action := fun _ s =>
  let s := { s with addr := s.ad, ad := s.ad + 1, brk := BrkFlags.empty }
  (s.withFlag .i true).withFlag .b true

/-- T5 (R312): read the vector's high byte. -/
def vectorHighTick : Action := fun c s => { s with addr := s.ad, ad := zext16 c.dbus }

/-- T6 (R313): go to the handler. -/
def handlerTick : Action := fun c s => { s with pc := highOver c.dbus s.ad }.fetch

/-- Taking an interrupt: the ticks of BRK, IRQ, NMI and RESET (60_exceptions.md R307-R313), by the set brk_flags; T0 is a dummy
read. -/
def interruptTicks : List Action :=
  [fun _ s => s.readAtPc, pushPcHighTick, pushPcLowTick, pushStatusTick, vectorLowTick, vectorHighTick, handlerTick]

/-- Returning from an interrupt: the ticks of RTI (44_control_stack.md R238). -/
def returnTicks : List Action :=
  [ -- T0, T1: dummy reads
    fun _ s => s.readAtPc,
    fun _ s => s.stepStack,
    -- T2: read P
    fun _ s => s.stepStack,
    -- T3: restore P; read PC low
    fun c s => { s.stepStack with p := pulledStatus c.dbus },
    -- T4: read PC high
    fun c s => { s.readStack with ad := zext16 c.dbus },
    -- T5: go on where the interrupt came
    fun c s => { s with pc := highOver c.dbus s.ad }.fetch ]

/-! ### The interrupt pipelines -/

/-- Interrupt sampling and line history (40_execution.md R102, R103), `masked` being P.I at the start of the tick. -/
def Intr.sample (n : Intr) (l : Lines) (masked : Bool) : Intr :=
  { irqPip := if l.irq && !masked then n.irqPip ||| 1 else n.irqPip
    nmiPip := if l.nmi && !n.nmiPrev then n.nmiPip ||| 1 else n.nmiPip
    nmiPrev := l.nmi
    resLatch := n.resLatch || l.res }

/-- The end of a tick: both pipelines move one to the left (40_execution.md R108). -/
def Intr.shift (n : Intr) : Intr := { n with irqPip := n.irqPip <<< 1, nmiPip := n.nmiPip <<< 1 }

/-- The end of a stalled tick: the IRQ pipeline moves one to the left, the NMI pipeline only where the parameter says so
(40_execution.md R104). -/
def Intr.stallShift (n : Intr) : Intr :=
  { n with
    irqPip := n.irqPip <<< 1
    nmiPip := if Config.rdyShiftsNmi then n.nmiPip <<< 1 else n.nmiPip }

/-- The branch quirk: both pipelines move one to the right (44_control_stack.md R240, R241). -/
def Intr.unshift (n : Intr) : Intr := { n with irqPip := n.irqPip >>> 1, nmiPip := n.nmiPip >>> 1 }

/-- What a boundary leaves of the pipelines: their two youngest samples (40_execution.md R106). -/
def Intr.keepYoungest (n : Intr) : Intr := { n with irqPip := n.irqPip &&& 3, nmiPip := n.nmiPip &&& 3 }

/-- The set a boundary finds (40_execution.md R106): an IRQ sampled exactly two ticks before, an NMI edge sampled two or more
ticks before, a RES seen since the last boundary, each added to what the set holds. -/
def State.requests (s : State) : BrkFlags :=
  { irq := s.brk.irq || s.intr.irqPip.getLsbD 2
    nmi := s.brk.nmi || decide (s.intr.nmiPip &&& 0xFFFC ≠ 0)
    res := s.brk.res || s.intr.resLatch }

end Sys2Proof.Machine
end

