-- ==== Sys2Proof/Machine/Tick.lean ====
section
/-!
DEFINITION. The parts of one tick, in the order of 40_execution.md R100; the platform's part between two ticks
(20_memory.md R51, R52); and the run of one instruction, tick by tick, from its boundary to the next (R106-R109).
-/
namespace Sys2Proof.Machine

/-! ### The parts of a tick -/

/-- `Dbus` (40_execution.md R101): what the external bus returned after a read cycle, what the core drove after a write. -/
def State.dbus (s : State) (din : Byte) : Byte := if s.rw then s.dout else din

/-- The data latch, the interrupt sampling and the line history of a tick (R101-R103). -/
def State.sampled (s : State) (inp : Input) : State :=
  { s with dout := s.dbus inp.din, intr := s.intr.sample inp.lines (s.flag .i) }

/-- The state of a core no tick of which has run (10_state.md R45): IR is 0, which no tick of a run leaves, a fetch is set up and a reset
is latched. DEDUCED, log entry 19. -/
def State.isNew (s : State) : Bool := s.sync && s.ir == 0 && s.intr.resLatch

/-- R104: an asserted RDY stalls the tick that completes a read cycle, and no other; but the first tick of a new core starts the
RESET sequence whatever the lines are (10_state.md R42). -/
def State.stalls (s : State) (l : Lines) : Bool := l.rdy && !s.rw && !s.isNew

/-- A stalled tick (R104). -/
def State.stallTick (s : State) (inp : Input) : State :=
  let s := s.sampled inp
  { s with intr := s.intr.stallShift }

/-- A tick that is not stalled and performs this action (R101-R103, R106-R108). -/
def State.liveTick (s : State) (act : Action) (inp : Input) : State :=
  let t := act { dbus := s.dbus inp.din, res := inp.lines.res } (s.sampled inp)
  { t with intr := t.intr.shift }

/-- What every boundary does first (R106): `sync <- 0`, and the pipelines keep their two youngest samples. -/
def State.leaveFetch (s : State) : State := { s with sync := false, intr := s.intr.keepYoungest }

/-- The boundary that forces the BRK/IRQ/NMI/RESET sequence (R106): the opcode is discarded, IR and P.B are cleared, RESET's
latch is consumed. -/
def State.enterInterrupt (s : State) : State :=
  let t := s.leaveFetch
  { t with
    ir := 0
    brk := s.requests
    p := setFlag s.p .b false
    intr := { t.intr with resLatch := false } }

/-- The boundary that starts an instruction (R106): IR takes the opcode, PC steps past it. -/
def State.enterOpcode (s : State) (op : Byte) : State :=
  { s.leaveFetch with ir := op.setWidth 11 <<< 3, pc := s.pc + 1 }

/-- The instruction boundary (R106). -/
def State.boundary (s : State) (dbus : Byte) : State :=
  if s.requests.any then s.enterInterrupt else s.enterOpcode dbus

/-- The opcode IR holds (10_state.md R34). -/
def State.irOpcode (s : State) : Byte := (s.ir >>> 3).setWidth 8

/-- The sub-cycle IR holds (10_state.md R34). -/
def State.subCycle (s : State) : Nat := (s.ir &&& 7).toNat

/-- The JAM state (60_exceptions.md R325): IR holds a JAM opcode (30_encoding.md R73) and sub-cycle 1. Where RES has led out of it
(R326) an opcode fetch is set up. -/
def State.inJam (s : State) : Bool :=
  !s.sync && s.subCycle == 1 &&
    ([0x02, 0x12, 0x22, 0x32, 0x42, 0x52, 0x62, 0x72, 0x92, 0xB2, 0xD2, 0xF2] : List Byte).contains s.irOpcode

/-- A stalled tick in the JAM state (R325): a stall, but the pins are those that every tick there outputs. DEDUCED, log entry 15. -/
def State.jamStallTick (s : State) (inp : Input) : State :=
  { s.stallTick inp with addr := 0xFFFF, dout := 0xFF }

/-- The micro-operation of a tick (R107): a read unless the action says otherwise, IR advances, the action of the sub-cycle
runs. A sub-cycle past the end of the microprogram, which no run reaches (10_state.md R34), does nothing. -/
def microStep (ticks : List Action) : Action := fun c s =>
  let t := { s with rw := false, ir := s.ir + 1 }
  match ticks[s.subCycle]? with
  | some act => act c t
  | none => t

/-! ### The platform -/

/-- The lines of the coming tick. -/
def State.line (s : State) : Lines := s.lines.headD Lines.idle

/-- The inputs the platform gives the coming tick: the lines, and on the data bus the byte given, or that of memory at the
address the pins hold (20_memory.md R51, R52). -/
def State.busInput (s : State) (data : Option Byte) : Input :=
  { din := data.getD (s.readByte s.addr), lines := s.line }

/-- The platform's part after a tick: a write cycle stores (R51), and the schedule of the lines moves on. -/
def State.platform (s : State) : State :=
  { s with
    mem := if s.rw then s.mem.write s.addr.toNat s.dout else s.mem
    lines := s.lines.tail }

/-! ### Running an instruction -/

/-- The stalled ticks before the next tick that is not stalled (R104, R105), by the schedule of the lines. -/
def awaitReady (stall : State → Input → State) (data : Option Byte) : List Lines → State → State
  | [], s => s
  | l :: rest, s =>
    if s.stalls l then awaitReady stall data rest (stall s (s.busInput data)).platform else s

/-- The ticks up to and including the next one that is not stalled, which performs the action. -/
def cycleWith (stall : State → Input → State) (act : Action) (data : Option Byte) (s : State) : State :=
  let s := awaitReady stall data s.lines s
  (s.liveTick act (s.busInput data)).platform

/-- `cycleWith` outside the JAM state. -/
def cycle (act : Action) (data : Option Byte) (s : State) : State := cycleWith State.stallTick act data s

/-- Perform sub-cycles until an opcode fetch is set up, `n` at most; `operand` says for each sub-cycle which byte the bus
returns, where that is an operand byte. -/
def runTicks (ticks : List Action) (operand : List (Option Byte)) : Nat → State → State
  | 0, s => s
  | n + 1, s =>
    if s.sync then s
    else runTicks ticks operand n (cycle (microStep ticks) (operand[s.subCycle]?.getD none) s)

/-- Run a microprogram from its boundary, whose tick does `enter` and then sub-cycle T0. -/
def runFrom (enter : State → State) (opcode : Option Byte) (ticks : List Action) (operand : List (Option Byte)) (s : State) :
    State :=
  runTicks ticks operand (ticks.length - 1) (cycle (fun c s => microStep ticks c (enter s)) opcode s)

/-- The sub-cycles that read an operand byte: T1 reads the first and T2 the second (40_execution.md R111-R120). -/
def operandReads (i : Instr) : List (Option Byte) := none :: i.operandBytes.map some

/-- Run an instruction whose operand bytes the given sub-cycles read. -/
def runReading (i : Instr) (ticks : List Action) (operand : List (Option Byte)) (s : State) : Result :=
  .next (runFrom (fun s => s.enterOpcode i.opcode) (some i.opcode) ticks operand s)

/-- Run an instruction from its boundary: fetch its opcode, read its operand bytes where the microprogram does, go on to the
next opcode fetch (R106-R109). It is the instruction's own effect: whether an interrupt comes first is `step`'s part. -/
def runInstr (i : Instr) (ticks : List Action) (s : State) : Result := runReading i ticks (operandReads i) s

/-- Run a JAM: its boundary, and its second tick, which is one of the JAM state (45_undocumented.md R290). -/
def runJam (i : Instr) (ticks : List Action) (s : State) : Result :=
  let s := cycle (fun c s => microStep ticks c (s.enterOpcode i.opcode)) (some i.opcode) s
  .next (cycleWith State.jamStallTick (microStep ticks) none s)

/-- What the coming boundary recognises (R106), after the stalls and the sampling of its tick. -/
def recognised (s : State) : BrkFlags :=
  let s := awaitReady State.stallTick none s.lines s
  (s.sampled (s.busInput none)).requests

/-- Whether the coming boundary recognises an interrupt or a reset (R106). -/
def recognises (s : State) : Bool := (recognised s).any

/-- Take the interrupt or reset the coming boundary recognises (60_exceptions.md R305): the sequence from T0 to the fetch of the
handler's first opcode. -/
def takeInterrupt (s : State) : State := runFrom State.enterInterrupt none interruptTicks [] s

end Sys2Proof.Machine
end

