-- ==== Sys2Proof/Machine/Operands.lean ====
section
/-!
DEFINITION. The addressing modes as ticks (40_execution.md R110-R121), how they and an operation make a microprogram (R109), and
the addresses they come to (30_encoding.md R71), which the claims use.
-/
namespace Sys2Proof.Machine

/-- The memory-access kinds (30_encoding.md R74). -/
inductive Access where
  /-- M___: no operand access. -/
  | none
  /-- M_R_: the operand is read. -/
  | read
  /-- M__W: the operand is written. -/
  | write
  /-- M_RW: the operand is read, then written twice. -/
  | readWrite
  deriving DecidableEq, Repr

/-- The addressing modes (30_encoding.md R75). -/
inductive Mode where
  | none
  | imm
  | zp
  | zpx
  | zpy
  | abs
  | abx
  | aby
  | idx
  | idy
  | jmp
  | jsr
  | inv
  deriving DecidableEq, Repr

/-! ### Address arithmetic -/

/-- `(base + index) & 0x00FF`: zero-page indexing wraps in page 0 (20_memory.md R56 (a), (b)). -/
def zeroPageAdd (base : Word) (index : Byte) : Word := (base + zext16 index) &&& 0x00FF

/-- `(base & 0xFF00) | ((base + index) & 0x00FF)`: the un-carried address (20_memory.md R58 (b)), and the second byte of a
JMP (ind) pointer (R56 (c)). -/
def pageAdd (base : Word) (index : Byte) : Word := (base &&& 0xFF00) ||| ((base + zext16 index) &&& 0x00FF)

/-- Adding the index to the base's low byte carries (40_execution.md R116). -/
def crossesPage (base : Word) (index : Byte) : Bool := decide (0xFF < (base &&& 0x00FF).toNat + index.toNat)

/-! ### The ticks of the modes -/

/-- T2 of abx and aby, T3 of idy (R116, R119): assemble the base, read at the un-carried address, and for a read without a page
crossing skip the next sub-cycle. -/
def indexTick (index : State → Byte) (k : Access) : Action := fun c s =>
  let s := { s with ad := s.ad ||| (zext16 c.dbus <<< 8) }
  let s := { s with addr := pageAdd s.ad (index s) }
  if k = .read ∧ ¬ crossesPage s.ad (index s) then { s with ir := s.ir + 1 } else s

/-- The last tick of abx, aby and idy: the carried effective address. -/
def carryTick (index : State → Byte) : Action := fun _ s => { s with addr := s.ad + zext16 (index s) }

/-- `addr <- PC; PC <- PC + 1`. -/
def operandTick : Action := fun _ s => s.readOperand

/-- `addr <- PC; PC <- PC + 1; AD <- zext_16(Dbus)`. -/
def secondOperandTick : Action := fun c s => { s.readOperand with ad := zext16 c.dbus }

/-- `addr <- zext_16(Dbus)`: an address in page 0. -/
def pageZeroTick : Action := fun c s => { s with addr := zext16 c.dbus }

/-- `AD <- zext_16(Dbus); addr <- AD`: a read at the unindexed zero-page address. -/
def zeroPageTick : Action := fun c s => { s with ad := zext16 c.dbus, addr := zext16 c.dbus }

/-- `addr <- (AD + index) & 0x00FF`: the indexed zero-page address. -/
def zeroPageIndexTick (index : State → Byte) : Action := fun _ s => { s with addr := zeroPageAdd s.ad (index s) }

/-- `AD <- (AD + X) & 0x00FF; addr <- AD`: an indexed zero-page pointer's low byte. -/
def pointerLowTick : Action := fun _ s => { s with ad := zeroPageAdd s.ad s.x, addr := zeroPageAdd s.ad s.x }

/-- `addr <- (AD + 1) & 0x00FF; AD <- zext_16(Dbus)`: a zero-page pointer's high byte. -/
def pointerHighTick : Action := fun c s => { s with addr := zeroPageAdd s.ad 1, ad := zext16 c.dbus }

/-- `addr <- (zext_16(Dbus) << 8) | AD`. -/
def assembleTick : Action := fun c s => { s with addr := highOver c.dbus s.ad }

/-- The addressing ticks of a mode for an access kind (R110-R121). -/
def addressing (m : Mode) (k : Access) : List Action :=
  match m with
  | .none => [fun _ s => s.readAtPc]
  | .imm => [operandTick]
  | .zp => [operandTick, pageZeroTick]
  | .zpx => [operandTick, zeroPageTick, zeroPageIndexTick State.x]
  | .zpy => [operandTick, zeroPageTick, zeroPageIndexTick State.y]
  | .abs => [operandTick, secondOperandTick, assembleTick]
  | .abx => [operandTick, secondOperandTick, indexTick State.x k, carryTick State.x]
  | .aby => [operandTick, secondOperandTick, indexTick State.y k, carryTick State.y]
  | .idx => [operandTick, zeroPageTick, pointerLowTick, pointerHighTick, assembleTick]
  | .idy => [operandTick, zeroPageTick, pointerHighTick, indexTick State.y k, carryTick State.y]
  | .jmp => [operandTick, secondOperandTick]
  | .jsr => [operandTick]
  | .inv => []

/-! ### Microprograms (R109) -/

/-- Append an action to the last tick of a list. -/
def appendLast (act : Action) : List Action → List Action
  | [] => []
  | [last] => [fun c s => act c (last c s)]
  | t :: u :: more => t :: appendLast act (u :: more)

/-- An M_R_ instruction with one operation tick, which reads its operand and fuses the fetch. -/
def readTicks (m : Mode) (op : Action) : List Action :=
  addressing m .read ++ [fun c s => (op c s).fetch]

/-- An M___ instruction with one operation tick, which fuses the fetch. -/
def impliedTicks (op : State → State) : List Action :=
  addressing .none .none ++ [fun _ s => (op s).fetch]

/-- An M__W instruction: its store action is appended to the last addressing tick, and the fetch is a tick of its own. -/
def writeTicks (m : Mode) (store : State → State) : List Action :=
  appendLast (fun _ s => store s) (addressing m .write) ++ [fetchTick]

/-- An M_RW instruction (43_arith_logic_rmw.md R214): the dummy write of the operand just read, the write of the new value, the
fetch. `f` gives the new value, and the state with its flag and register effects. -/
def modifyTicks (m : Mode) (f : Byte → State → Byte × State) : List Action :=
  addressing m .readWrite ++
    [ fun c s => { s with ad := zext16 c.dbus, rw := true },
      fun _ s =>
        match f (lo s.ad) s with
        | (v, s) => s.drive v,
      fetchTick ]

/-! ### The addresses the modes come to (30_encoding.md R71) -/

/-- A zero-page operand as an address. -/
def addrZp (z : Byte) (_ : State) : Word := zext16 z

/-- `(z + X) & 0xFF`. -/
def addrZpx (z : Byte) (s : State) : Word := zext16 (z + s.x)

/-- `(z + Y) & 0xFF`. -/
def addrZpy (z : Byte) (s : State) : Word := zext16 (z + s.y)

/-- `(hi << 8) | lo`. -/
def addrAbs (k : Word) (_ : State) : Word := k

/-- `((hi << 8) | lo) + X`, modulo 0x10000. -/
def addrAbx (k : Word) (s : State) : Word := k + zext16 s.x

/-- `((hi << 8) | lo) + Y`, modulo 0x10000. -/
def addrAby (k : Word) (s : State) : Word := k + zext16 s.y

/-- A 16-bit pointer in page 0, its high byte at the next address of page 0 (20_memory.md R56 (b)). -/
def zeroPagePointer (p : Byte) (s : State) : Word :=
  mkWord (s.readByte (zext16 (p + 1))) (s.readByte (zext16 p))

/-- The pointer at `(z + X) & 0xFF`. -/
def addrIdx (z : Byte) (s : State) : Word := zeroPagePointer (z + s.x) s

/-- The pointer at `z`, plus Y modulo 0x10000. -/
def addrIdy (z : Byte) (s : State) : Word := zeroPagePointer z s + zext16 s.y

end Sys2Proof.Machine
end

