-- ==== Sys2Proof/Machine/Flags.lean ====
section
/-!
DEFINITION. The ALU and flag engine (41_alu.md): functions of operands and flags (R140), and how their results go to A and P.
-/
namespace Sys2Proof.Machine

/-! ### Flags of a result -/

/-- `NZ(v)` on a status byte (R141). -/
def setNZ (p v : Byte) : Byte := setFlag (setFlag p .n v.msb) .z (v == 0)

/-- `NZ(v)`. -/
def State.nz (v : Byte) (s : State) : State := { s with p := setNZ s.p v }

/-- `A <- v; NZ(A)`. -/
def State.loadA (v : Byte) (s : State) : State := { s with a := v, p := setNZ s.p v }

/-- `X <- v; NZ(X)`. -/
def State.loadX (v : Byte) (s : State) : State := { s with x := v, p := setNZ s.p v }

/-- `Y <- v; NZ(Y)`. -/
def State.loadY (v : Byte) (s : State) : State := { s with y := v, p := setNZ s.p v }

/-- The four flags of an add, a subtract or ARR on a status byte. -/
def setNVZC (p : Byte) (q : AluResult) : Byte :=
  setFlag (setFlag (setFlag (setFlag p .n q.n) .v q.v) .z q.z) .c q.c

/-- `A <- r`, and P.N, P.V, P.Z, P.C written. -/
def State.loadAlu (q : AluResult) (s : State) : State := { s with a := q.r, p := setNVZC s.p q }

/-- A bit as a number. -/
def bitByte (c : Bool) : Byte := if c then 1 else 0

/-! ### Add and subtract -/

/-- `adc_bin(a, m, c)` (R142). -/
def adcBin (a m : Byte) (c : Bool) : AluResult :=
  let sum := zext16 a + zext16 m + zext16 (bitByte c)
  let r := lo sum
  { r := r
    n := r.msb
    v := (~~~(a ^^^ m) &&& (a ^^^ r)).msb
    z := r == 0
    c := sum.getLsbD 8 }

/-- `sbc_bin(a, m, c)` (R143). -/
def sbcBin (a m : Byte) (c : Bool) : AluResult :=
  let diff := zext16 a - zext16 m - (1 - zext16 (bitByte c))
  let r := lo diff
  { r := r
    n := r.msb
    v := ((a ^^^ m) &&& (a ^^^ r)).msb
    z := r == 0
    c := hi diff == 0 }

/-- `adc_dec(a, m, c)` (R144). -/
def adcDec (a m : Byte) (c : Bool) : AluResult :=
  let al : Byte := (a &&& 0x0F) + (m &&& 0x0F) + bitByte c
  let al := if 9 < al then al + 6 else al
  let ah : Byte := (a >>> 4) + (m >>> 4) + (if 0x0F < al then 1 else 0)
  let z := (a + m + bitByte c) == 0
  let n := !z && ah.getLsbD 3
  let v := (~~~(a ^^^ m) &&& (a ^^^ (ah <<< 4))).msb
  let ah := if 9 < ah then ah + 6 else ah
  { r := (ah <<< 4) ||| (al &&& 0x0F), n := n, v := v, z := z, c := decide (0x0F < ah) }

/-- `sbc_dec(a, m, c)` (R145). -/
def sbcDec (a m : Byte) (c : Bool) : AluResult :=
  let b : Byte := 1 - bitByte c
  let diff := zext16 a - zext16 m - zext16 b
  let al : Byte := (a &&& 0x0F) - (m &&& 0x0F) - b
  let al := if al.msb then al - 6 else al
  let ah : Byte := (a >>> 4) - (m >>> 4) - bitByte al.msb
  let z := lo diff == 0
  let n := !z && (lo diff).msb
  let v := ((a ^^^ m) &&& (a ^^^ lo diff)).msb
  let ah := if ah.msb then ah - 6 else ah
  { r := (ah <<< 4) ||| (al &&& 0x0F), n := n, v := v, z := z, c := hi diff == 0 }

/-- Both nibbles are 0-9. -/
def isBcd (v : Byte) : Bool := decide ((v &&& 0x0F).toNat ≤ 9) && decide ((v >>> 4).toNat ≤ 9)

/-- A decimal operation: the algorithm where both operands are BCD numbers, the parameter `DecimalInvalid` where one is not
(R146). For ARR too the operands are A and the operand byte (log entry 9). -/
def decimal (op : DecimalOp) (algorithm : Byte → Byte → Bool → AluResult) (a m : Byte) (c : Bool) : AluResult :=
  if isBcd a && isBcd m then algorithm a m c else Config.decimalInvalid op a m c

/-- ADC and the addition of RRA: binary or decimal by P.D (43_arith_logic_rmw.md R203). -/
def adcResult (op : DecimalOp) (d : Bool) (a m : Byte) (c : Bool) : AluResult :=
  if d then decimal op adcDec a m c else adcBin a m c

/-- SBC and the subtraction of ISB: binary or decimal by P.D (43_arith_logic_rmw.md R204). -/
def sbcResult (op : DecimalOp) (d : Bool) (a m : Byte) (c : Bool) : AluResult :=
  if d then decimal op sbcDec a m c else sbcBin a m c

/-- `A <- A + m + C`, N, V, Z, C written. -/
def State.addToA (op : DecimalOp) (m : Byte) (s : State) : State :=
  s.loadAlu (adcResult op (s.flag .d) s.a m (s.flag .c))

/-- `A <- A - m - (1 - C)`, N, V, Z, C written. -/
def State.subtractFromA (op : DecimalOp) (m : Byte) (s : State) : State :=
  s.loadAlu (sbcResult op (s.flag .d) s.a m (s.flag .c))

/-! ### Compare and bit test -/

/-- The flags of `cmp(r, m)` (R148): N, Z, C of the difference. -/
def cmpStatus (p r m : Byte) : Byte :=
  let t := zext16 r - zext16 m
  setFlag (setFlag (setFlag p .n (lo t).msb) .z (lo t == 0)) .c (hi t == 0)

/-- `cmp(r, m)`. -/
def State.compare (r m : Byte) (s : State) : State := { s with p := cmpStatus s.p r m }

/-- The flags of `bit(a, m)` (R155): Z of the AND, N and V from the operand. -/
def bitStatus (p a m : Byte) : Byte :=
  setFlag (setFlag (setFlag p .n m.msb) .v (m.getLsbD 6)) .z ((a &&& m) == 0)

/-! ### Shifts and rotates: the result, and the carry out -/

/-- `asl(v)` (R149). -/
def asl (v : Byte) : Byte × Bool := (v <<< 1, v.msb)

/-- `lsr(v)` (R150). -/
def lsr (v : Byte) : Byte × Bool := (v >>> 1, v.getLsbD 0)

/-- `rol(v, c)` (R153). -/
def rol (v : Byte) (c : Bool) : Byte × Bool := ((v <<< 1) ||| bitByte c, v.msb)

/-- `ror(v, c)` (R154). -/
def ror (v : Byte) (c : Bool) : Byte × Bool := ((bitByte c <<< 7) ||| (v >>> 1), v.getLsbD 0)

/-- The flags of a shift or rotate: C is the bit shifted out, N and Z are those of the result. -/
def shiftStatus (p : Byte) (q : Byte × Bool) : Byte := setNZ (setFlag p .c q.2) q.1

/-- The flag effects of a shift or rotate. -/
def State.shifted (q : Byte × Bool) (s : State) : State := { s with p := shiftStatus s.p q }

/-! ### Functions of undocumented operations -/

/-- `arr_bin(a, m, c)` (R151). -/
def arrBin (a m : Byte) (c : Bool) : AluResult :=
  let t := a &&& m
  let r := (bitByte c <<< 7) ||| (t >>> 1)
  { r := r, n := r.msb, v := r.getLsbD 6 ^^ r.getLsbD 5, z := r == 0, c := r.getLsbD 6 }

/-- `arr_dec(a, m, c)` (R152). -/
def arrDec (a m : Byte) (c : Bool) : AluResult :=
  let t := a &&& m
  let r := (bitByte c <<< 7) ||| (t >>> 1)
  let low := if 5 ≤ t &&& 0x0F then ((r + 6) &&& 0x0F) ||| (r &&& 0xF0) else r
  let carry := decide (0x50 ≤ t &&& 0xF0)
  { r := if carry then low + 0x60 else low, n := r.msb, v := (r ^^^ t).getLsbD 6, z := r == 0, c := carry }

/-- ARR: binary or decimal by P.D (45_undocumented.md R271). -/
def arrResult (d : Bool) (a m : Byte) (c : Bool) : AluResult :=
  if d then decimal .arr arrDec a m c else arrBin a m c

/-- `sbx(a, x, m)` (R156): the byte for X and the carry. -/
def sbx (a x m : Byte) : Byte × Bool :=
  let t := zext16 (a &&& x) - zext16 m
  (lo t, hi t == 0)

/-! ### Increment and decrement -/

/-- `inc(v)` (R157). -/
def inc (v : Byte) : Byte := v + 1

/-- `dec(v)` (R157). -/
def dec (v : Byte) : Byte := v - 1

end Sys2Proof.Machine
end

