-- ==== Sys2Proof/Machine/Control.lean ====
section
/-!
DEFINITION. Stack, jump, subroutine, BRK and RTI, branch and NOP instructions (44_control_stack.md R230-R250, and
45_undocumented.md R282): each instruction's microprogram (`ticks…`) and its meaning (`exec…`).
-/
namespace Sys2Proof.Machine

/-! ### Stack instructions (R230-R233) -/

/-- R230, R231: the ticks of a push. -/
def pushTicks (v : State → Byte) : List Action :=
  addressing .none .write ++ [fun _ s => s.push (v s), fetchTick]

/-- R232, R233: the ticks of a pull, and what its last does with the pulled byte. -/
def pullTicks (op : Action) : List Action :=
  addressing .none .none ++ [fun _ s => s.stepStack, fun _ s => s.readStack, fun c s => (op c s).fetch]

/-- 0x48 `PHA` (R230): the ticks. -/
def ticksPha : List Action := pushTicks State.a

/-- 0x48 `PHA` (R230). -/
def execPha (s : State) : Result := runInstr .pha ticksPha s

/-- 0x08 `PHP` (R231): the ticks. -/
def ticksPhp : List Action := pushTicks (fun s => pushedStatus s.p)

/-- 0x08 `PHP` (R231). -/
def execPhp (s : State) : Result := runInstr .php ticksPhp s

/-- R232: `A <- Dbus; NZ(A)`. -/
def plaOp : Action := fun c s => s.loadA c.dbus

/-- 0x68 `PLA` (R232): the ticks. -/
def ticksPla : List Action := pullTicks plaOp

/-- 0x68 `PLA` (R232). -/
def execPla (s : State) : Result := runInstr .pla ticksPla s

/-- R233: `P <- (Dbus | 0x10) & ~0x20`. -/
def plpOp : Action := fun c s => { s with p := pulledStatus c.dbus }

/-- 0x28 `PLP` (R233): the ticks. -/
def ticksPlp : List Action := pullTicks plpOp

/-- 0x28 `PLP` (R233). -/
def execPlp (s : State) : Result := runInstr .plp ticksPlp s

/-! ### Jumps and subroutines (R234-R239) -/

/-- 0x4C `JMP $nnnn` (R234): the ticks. -/
def ticksJmpAbs : List Action := 
  addressing .jmp .read ++ [fun c s => { s with pc := highOver c.dbus s.ad }.fetch]

/-- 0x4C `JMP $nnnn` (R234). -/
def execJmpAbs (a : Word) (s : State) : Result := runInstr (.jmpAbs a) ticksJmpAbs s

/-- 0x6C `JMP ($nnnn)` (R235): the ticks. -/
def ticksJmpInd : List Action := 
  addressing .jmp .read ++
    [ -- T2: read the pointer's low byte
      fun c s => { s with ad := s.ad ||| (zext16 c.dbus <<< 8), addr := s.ad ||| (zext16 c.dbus <<< 8) },
      -- T3: read its high byte, in the same page
      fun c s => { s with addr := pageAdd s.ad 1, ad := zext16 c.dbus },
      fun c s => { s with pc := highOver c.dbus s.ad }.fetch ]

/-- 0x6C `JMP ($nnnn)` (R235). -/
def execJmpInd (a : Word) (s : State) : Result := runInstr (.jmpInd a) ticksJmpInd s

/-- 0x20 `JSR $nnnn` (R236): the ticks. -/
def ticksJsr : List Action := 
  addressing .jsr .read ++
    [ -- T1: a dummy read on the stack; the target's low byte
      fun c s => { s.readStack with ad := zext16 c.dbus },
      -- T2, T3: push the address of the instruction's last byte
      fun _ s => s.push (hi s.pc),
      fun _ s => s.push (lo s.pc),
      -- T4: read the target's high byte
      fun _ s => s.readAtPc,
      fun c s => { s with pc := highOver c.dbus s.ad }.fetch ]


/-- R236: JSR reads the high byte of its target after its pushes: the operand's, unless a push lands on that very byte, in which
case the bus gives what was pushed (log entry 12). -/
def jsrHighRead (k : Word) (s : State) : Option Byte :=
  if s.pc + 2 = stackAddr s.sp ∨ s.pc + 2 = stackAddr (s.sp - 1) then none else some (hi k)

/-- 0x20 `JSR $nnnn` (R236). -/
def execJsr (a : Word) (s : State) : Result :=
  runReading (.jsr a) ticksJsr [none, some (lo a), none, none, none, jsrHighRead a s] s

/-- 0x60 `RTS` (R237): the ticks. -/
def ticksRts : List Action := 
  addressing .none .none ++
    [ fun _ s => s.stepStack,
      -- T2, T3: pull the return address
      fun _ s => s.stepStack,
      fun c s => { s.readStack with ad := zext16 c.dbus },
      -- T4: a dummy read there; step past it
      fun c s => { s with pc := highOver c.dbus s.ad }.readOperand,
      fetchTick ]

/-- 0x60 `RTS` (R237). -/
def execRts (s : State) : Result := runInstr .rts ticksRts s

/-- 0x40 `RTI` (R238): the ticks. -/
def ticksRti : List Action := returnTicks

/-- 0x40 `RTI` (R238). -/
def execRti (s : State) : Result := runInstr .rti ticksRti s

/-- 0x00 `BRK` (R239): the ticks. -/
def ticksBrk : List Action := interruptTicks

/-- 0x00 `BRK` (R239). -/
def execBrk (s : State) : Result := runInstr .brk ticksBrk s

/-! ### Conditional branches (R240-R249) -/

/-- R240: the ticks of a branch on a condition. -/
def branchTicks (cond : State → Bool) : List Action :=
  [ -- T0: read the offset
    operandTick,
    -- T1: the target; not taken, fetch
    fun c s =>
      let s := { s.readAtPc with ad := s.pc + sext16 c.dbus }
      if cond s then s else s.fetch,
    -- T2: in the page of the next instruction, go there and shift the pipelines back
    fun _ s =>
      let s := { s with addr := (s.pc &&& 0xFF00) ||| (s.ad &&& 0x00FF) }
      if s.ad &&& 0xFF00 = s.pc &&& 0xFF00 then { s with pc := s.ad, intr := s.intr.unshift }.fetch else s,
    -- T3: in another page
    fun _ s => { s with pc := s.ad }.fetch ]

/-- 0x10 `BPL $nnnn (offset byte)` (R242): the ticks. -/
def ticksBpl : List Action := branchTicks fun s => !s.flag .n

/-- 0x10 `BPL $nnnn (offset byte)` (R242). -/
def execBpl (o : Int) (s : State) : Result := runInstr (.bpl o) ticksBpl s

/-- 0x30 `BMI $nnnn (offset byte)` (R243): the ticks. -/
def ticksBmi : List Action := branchTicks fun s => s.flag .n

/-- 0x30 `BMI $nnnn (offset byte)` (R243). -/
def execBmi (o : Int) (s : State) : Result := runInstr (.bmi o) ticksBmi s

/-- 0x50 `BVC $nnnn (offset byte)` (R244): the ticks. -/
def ticksBvc : List Action := branchTicks fun s => !s.flag .v

/-- 0x50 `BVC $nnnn (offset byte)` (R244). -/
def execBvc (o : Int) (s : State) : Result := runInstr (.bvc o) ticksBvc s

/-- 0x70 `BVS $nnnn (offset byte)` (R245): the ticks. -/
def ticksBvs : List Action := branchTicks fun s => s.flag .v

/-- 0x70 `BVS $nnnn (offset byte)` (R245). -/
def execBvs (o : Int) (s : State) : Result := runInstr (.bvs o) ticksBvs s

/-- 0x90 `BCC $nnnn (offset byte)` (R246): the ticks. -/
def ticksBcc : List Action := branchTicks fun s => !s.flag .c

/-- 0x90 `BCC $nnnn (offset byte)` (R246). -/
def execBcc (o : Int) (s : State) : Result := runInstr (.bcc o) ticksBcc s

/-- 0xB0 `BCS $nnnn (offset byte)` (R247): the ticks. -/
def ticksBcs : List Action := branchTicks fun s => s.flag .c

/-- 0xB0 `BCS $nnnn (offset byte)` (R247). -/
def execBcs (o : Int) (s : State) : Result := runInstr (.bcs o) ticksBcs s

/-- 0xD0 `BNE $nnnn (offset byte)` (R248): the ticks. -/
def ticksBne : List Action := branchTicks fun s => !s.flag .z

/-- 0xD0 `BNE $nnnn (offset byte)` (R248). -/
def execBne (o : Int) (s : State) : Result := runInstr (.bne o) ticksBne s

/-- 0xF0 `BEQ $nnnn (offset byte)` (R249): the ticks. -/
def ticksBeq : List Action := branchTicks fun s => s.flag .z

/-- 0xF0 `BEQ $nnnn (offset byte)` (R249). -/
def execBeq (o : Int) (s : State) : Result := runInstr (.beq o) ticksBeq s

/-! ### NOP (R250; the undocumented forms: 45_undocumented.md R282) -/

/-- R250, R282: nothing. -/
def nopOp : State → State := fun s => s

/-- R282: the operand is read and discarded. -/
def nopReadOp : Action := fun _ s => s

/-- 0x04 `NOP $nn` (R282): the ticks. -/
def ticksNopZp04 : List Action := readTicks .zp nopReadOp

/-- 0x04 `NOP $nn` (R282). -/
def execNopZp04 (n : Byte) (s : State) : Result := runInstr (.nopZp04 n) ticksNopZp04 s

/-- 0x0C `NOP $nnnn` (R282): the ticks. -/
def ticksNopAbs0C : List Action := readTicks .abs nopReadOp

/-- 0x0C `NOP $nnnn` (R282). -/
def execNopAbs0C (a : Word) (s : State) : Result := runInstr (.nopAbs0C a) ticksNopAbs0C s

/-- 0x14 `NOP $nn,X` (R282): the ticks. -/
def ticksNopZpx14 : List Action := readTicks .zpx nopReadOp

/-- 0x14 `NOP $nn,X` (R282). -/
def execNopZpx14 (n : Byte) (s : State) : Result := runInstr (.nopZpx14 n) ticksNopZpx14 s

/-- 0x1A `NOP` (R282): the ticks. -/
def ticksNop1A : List Action := impliedTicks nopOp

/-- 0x1A `NOP` (R282). -/
def execNop1A (s : State) : Result := runInstr .nop1A ticksNop1A s

/-- 0x1C `NOP $nnnn,X` (R282): the ticks. -/
def ticksNopAbx1C : List Action := readTicks .abx nopReadOp

/-- 0x1C `NOP $nnnn,X` (R282). -/
def execNopAbx1C (a : Word) (s : State) : Result := runInstr (.nopAbx1C a) ticksNopAbx1C s

/-- 0x34 `NOP $nn,X` (R282): the ticks. -/
def ticksNopZpx34 : List Action := readTicks .zpx nopReadOp

/-- 0x34 `NOP $nn,X` (R282). -/
def execNopZpx34 (n : Byte) (s : State) : Result := runInstr (.nopZpx34 n) ticksNopZpx34 s

/-- 0x3A `NOP` (R282): the ticks. -/
def ticksNop3A : List Action := impliedTicks nopOp

/-- 0x3A `NOP` (R282). -/
def execNop3A (s : State) : Result := runInstr .nop3A ticksNop3A s

/-- 0x3C `NOP $nnnn,X` (R282): the ticks. -/
def ticksNopAbx3C : List Action := readTicks .abx nopReadOp

/-- 0x3C `NOP $nnnn,X` (R282). -/
def execNopAbx3C (a : Word) (s : State) : Result := runInstr (.nopAbx3C a) ticksNopAbx3C s

/-- 0x44 `NOP $nn` (R282): the ticks. -/
def ticksNopZp44 : List Action := readTicks .zp nopReadOp

/-- 0x44 `NOP $nn` (R282). -/
def execNopZp44 (n : Byte) (s : State) : Result := runInstr (.nopZp44 n) ticksNopZp44 s

/-- 0x54 `NOP $nn,X` (R282): the ticks. -/
def ticksNopZpx54 : List Action := readTicks .zpx nopReadOp

/-- 0x54 `NOP $nn,X` (R282). -/
def execNopZpx54 (n : Byte) (s : State) : Result := runInstr (.nopZpx54 n) ticksNopZpx54 s

/-- 0x5A `NOP` (R282): the ticks. -/
def ticksNop5A : List Action := impliedTicks nopOp

/-- 0x5A `NOP` (R282). -/
def execNop5A (s : State) : Result := runInstr .nop5A ticksNop5A s

/-- 0x5C `NOP $nnnn,X` (R282): the ticks. -/
def ticksNopAbx5C : List Action := readTicks .abx nopReadOp

/-- 0x5C `NOP $nnnn,X` (R282). -/
def execNopAbx5C (a : Word) (s : State) : Result := runInstr (.nopAbx5C a) ticksNopAbx5C s

/-- 0x64 `NOP $nn` (R282): the ticks. -/
def ticksNopZp64 : List Action := readTicks .zp nopReadOp

/-- 0x64 `NOP $nn` (R282). -/
def execNopZp64 (n : Byte) (s : State) : Result := runInstr (.nopZp64 n) ticksNopZp64 s

/-- 0x74 `NOP $nn,X` (R282): the ticks. -/
def ticksNopZpx74 : List Action := readTicks .zpx nopReadOp

/-- 0x74 `NOP $nn,X` (R282). -/
def execNopZpx74 (n : Byte) (s : State) : Result := runInstr (.nopZpx74 n) ticksNopZpx74 s

/-- 0x7A `NOP` (R282): the ticks. -/
def ticksNop7A : List Action := impliedTicks nopOp

/-- 0x7A `NOP` (R282). -/
def execNop7A (s : State) : Result := runInstr .nop7A ticksNop7A s

/-- 0x7C `NOP $nnnn,X` (R282): the ticks. -/
def ticksNopAbx7C : List Action := readTicks .abx nopReadOp

/-- 0x7C `NOP $nnnn,X` (R282). -/
def execNopAbx7C (a : Word) (s : State) : Result := runInstr (.nopAbx7C a) ticksNopAbx7C s

/-- 0x80 `NOP #$nn` (R282): the ticks. -/
def ticksNopImm80 : List Action := readTicks .imm nopReadOp

/-- 0x80 `NOP #$nn` (R282). -/
def execNopImm80 (n : Byte) (s : State) : Result := runInstr (.nopImm80 n) ticksNopImm80 s

/-- 0x82 `NOP #$nn` (R282): the ticks. -/
def ticksNopImm82 : List Action := readTicks .imm nopReadOp

/-- 0x82 `NOP #$nn` (R282). -/
def execNopImm82 (n : Byte) (s : State) : Result := runInstr (.nopImm82 n) ticksNopImm82 s

/-- 0x89 `NOP #$nn` (R282): the ticks. -/
def ticksNopImm89 : List Action := readTicks .imm nopReadOp

/-- 0x89 `NOP #$nn` (R282). -/
def execNopImm89 (n : Byte) (s : State) : Result := runInstr (.nopImm89 n) ticksNopImm89 s

/-- 0xC2 `NOP #$nn` (R282): the ticks. -/
def ticksNopImmC2 : List Action := readTicks .imm nopReadOp

/-- 0xC2 `NOP #$nn` (R282). -/
def execNopImmC2 (n : Byte) (s : State) : Result := runInstr (.nopImmC2 n) ticksNopImmC2 s

/-- 0xD4 `NOP $nn,X` (R282): the ticks. -/
def ticksNopZpxD4 : List Action := readTicks .zpx nopReadOp

/-- 0xD4 `NOP $nn,X` (R282). -/
def execNopZpxD4 (n : Byte) (s : State) : Result := runInstr (.nopZpxD4 n) ticksNopZpxD4 s

/-- 0xDA `NOP` (R282): the ticks. -/
def ticksNopDA : List Action := impliedTicks nopOp

/-- 0xDA `NOP` (R282). -/
def execNopDA (s : State) : Result := runInstr .nopDA ticksNopDA s

/-- 0xDC `NOP $nnnn,X` (R282): the ticks. -/
def ticksNopAbxDC : List Action := readTicks .abx nopReadOp

/-- 0xDC `NOP $nnnn,X` (R282). -/
def execNopAbxDC (a : Word) (s : State) : Result := runInstr (.nopAbxDC a) ticksNopAbxDC s

/-- 0xE2 `NOP #$nn` (R282): the ticks. -/
def ticksNopImmE2 : List Action := readTicks .imm nopReadOp

/-- 0xE2 `NOP #$nn` (R282). -/
def execNopImmE2 (n : Byte) (s : State) : Result := runInstr (.nopImmE2 n) ticksNopImmE2 s

/-- 0xEA `NOP` (R250): the ticks. -/
def ticksNopEA : List Action := impliedTicks nopOp

/-- 0xEA `NOP` (R250). -/
def execNopEA (s : State) : Result := runInstr .nopEA ticksNopEA s

/-- 0xF4 `NOP $nn,X` (R282): the ticks. -/
def ticksNopZpxF4 : List Action := readTicks .zpx nopReadOp

/-- 0xF4 `NOP $nn,X` (R282). -/
def execNopZpxF4 (n : Byte) (s : State) : Result := runInstr (.nopZpxF4 n) ticksNopZpxF4 s

/-- 0xFA `NOP` (R282): the ticks. -/
def ticksNopFA : List Action := impliedTicks nopOp

/-- 0xFA `NOP` (R282). -/
def execNopFA (s : State) : Result := runInstr .nopFA ticksNopFA s

/-- 0xFC `NOP $nnnn,X` (R282): the ticks. -/
def ticksNopAbxFC : List Action := readTicks .abx nopReadOp

/-- 0xFC `NOP $nnnn,X` (R282). -/
def execNopAbxFC (a : Word) (s : State) : Result := runInstr (.nopAbxFC a) ticksNopAbxFC s

end Sys2Proof.Machine
end

