-- ==== Sys2Proof/Machine/LoadStore.lean ====
section
/-!
DEFINITION. Loads, stores, register transfers and flag instructions (42_load_store_transfer.md R171-R189): each
instruction's microprogram (`ticks…`) and its meaning (`exec…`).
-/
namespace Sys2Proof.Machine

/-! ### Loads (R171-R173) -/

/-- R171: `A <- Dbus; NZ(A)`. -/
def ldaOp : Action := fun c s => s.loadA c.dbus

/-- 0xA1 `LDA ($nn,X)` (R171): the ticks. -/
def ticksLdaIdx : List Action := readTicks .idx ldaOp

/-- 0xA1 `LDA ($nn,X)` (R171). -/
def execLdaIdx (n : Byte) (s : State) : Result := runInstr (.ldaIdx n) ticksLdaIdx s

/-- 0xA5 `LDA $nn` (R171): the ticks. -/
def ticksLdaZp : List Action := readTicks .zp ldaOp

/-- 0xA5 `LDA $nn` (R171). -/
def execLdaZp (n : Byte) (s : State) : Result := runInstr (.ldaZp n) ticksLdaZp s

/-- 0xA9 `LDA #$nn` (R171): the ticks. -/
def ticksLdaImm : List Action := readTicks .imm ldaOp

/-- 0xA9 `LDA #$nn` (R171). -/
def execLdaImm (n : Byte) (s : State) : Result := runInstr (.ldaImm n) ticksLdaImm s

/-- 0xAD `LDA $nnnn` (R171): the ticks. -/
def ticksLdaAbs : List Action := readTicks .abs ldaOp

/-- 0xAD `LDA $nnnn` (R171). -/
def execLdaAbs (a : Word) (s : State) : Result := runInstr (.ldaAbs a) ticksLdaAbs s

/-- 0xB1 `LDA ($nn),Y` (R171): the ticks. -/
def ticksLdaIdy : List Action := readTicks .idy ldaOp

/-- 0xB1 `LDA ($nn),Y` (R171). -/
def execLdaIdy (n : Byte) (s : State) : Result := runInstr (.ldaIdy n) ticksLdaIdy s

/-- 0xB5 `LDA $nn,X` (R171): the ticks. -/
def ticksLdaZpx : List Action := readTicks .zpx ldaOp

/-- 0xB5 `LDA $nn,X` (R171). -/
def execLdaZpx (n : Byte) (s : State) : Result := runInstr (.ldaZpx n) ticksLdaZpx s

/-- 0xB9 `LDA $nnnn,Y` (R171): the ticks. -/
def ticksLdaAby : List Action := readTicks .aby ldaOp

/-- 0xB9 `LDA $nnnn,Y` (R171). -/
def execLdaAby (a : Word) (s : State) : Result := runInstr (.ldaAby a) ticksLdaAby s

/-- 0xBD `LDA $nnnn,X` (R171): the ticks. -/
def ticksLdaAbx : List Action := readTicks .abx ldaOp

/-- 0xBD `LDA $nnnn,X` (R171). -/
def execLdaAbx (a : Word) (s : State) : Result := runInstr (.ldaAbx a) ticksLdaAbx s

/-- R172: `X <- Dbus; NZ(X)`. -/
def ldxOp : Action := fun c s => s.loadX c.dbus

/-- 0xA2 `LDX #$nn` (R172): the ticks. -/
def ticksLdxImm : List Action := readTicks .imm ldxOp

/-- 0xA2 `LDX #$nn` (R172). -/
def execLdxImm (n : Byte) (s : State) : Result := runInstr (.ldxImm n) ticksLdxImm s

/-- 0xA6 `LDX $nn` (R172): the ticks. -/
def ticksLdxZp : List Action := readTicks .zp ldxOp

/-- 0xA6 `LDX $nn` (R172). -/
def execLdxZp (n : Byte) (s : State) : Result := runInstr (.ldxZp n) ticksLdxZp s

/-- 0xAE `LDX $nnnn` (R172): the ticks. -/
def ticksLdxAbs : List Action := readTicks .abs ldxOp

/-- 0xAE `LDX $nnnn` (R172). -/
def execLdxAbs (a : Word) (s : State) : Result := runInstr (.ldxAbs a) ticksLdxAbs s

/-- 0xB6 `LDX $nn,Y` (R172): the ticks. -/
def ticksLdxZpy : List Action := readTicks .zpy ldxOp

/-- 0xB6 `LDX $nn,Y` (R172). -/
def execLdxZpy (n : Byte) (s : State) : Result := runInstr (.ldxZpy n) ticksLdxZpy s

/-- 0xBE `LDX $nnnn,Y` (R172): the ticks. -/
def ticksLdxAby : List Action := readTicks .aby ldxOp

/-- 0xBE `LDX $nnnn,Y` (R172). -/
def execLdxAby (a : Word) (s : State) : Result := runInstr (.ldxAby a) ticksLdxAby s

/-- R173: `Y <- Dbus; NZ(Y)`. -/
def ldyOp : Action := fun c s => s.loadY c.dbus

/-- 0xA0 `LDY #$nn` (R173): the ticks. -/
def ticksLdyImm : List Action := readTicks .imm ldyOp

/-- 0xA0 `LDY #$nn` (R173). -/
def execLdyImm (n : Byte) (s : State) : Result := runInstr (.ldyImm n) ticksLdyImm s

/-- 0xA4 `LDY $nn` (R173): the ticks. -/
def ticksLdyZp : List Action := readTicks .zp ldyOp

/-- 0xA4 `LDY $nn` (R173). -/
def execLdyZp (n : Byte) (s : State) : Result := runInstr (.ldyZp n) ticksLdyZp s

/-- 0xAC `LDY $nnnn` (R173): the ticks. -/
def ticksLdyAbs : List Action := readTicks .abs ldyOp

/-- 0xAC `LDY $nnnn` (R173). -/
def execLdyAbs (a : Word) (s : State) : Result := runInstr (.ldyAbs a) ticksLdyAbs s

/-- 0xB4 `LDY $nn,X` (R173): the ticks. -/
def ticksLdyZpx : List Action := readTicks .zpx ldyOp

/-- 0xB4 `LDY $nn,X` (R173). -/
def execLdyZpx (n : Byte) (s : State) : Result := runInstr (.ldyZpx n) ticksLdyZpx s

/-- 0xBC `LDY $nnnn,X` (R173): the ticks. -/
def ticksLdyAbx : List Action := readTicks .abx ldyOp

/-- 0xBC `LDY $nnnn,X` (R173). -/
def execLdyAbx (a : Word) (s : State) : Result := runInstr (.ldyAbx a) ticksLdyAbx s

/-! ### Stores (R174-R176) -/

/-- R174: `dout <- A; WR`. -/
def staStore : State → State := fun s => s.drive s.a

/-- 0x81 `STA ($nn,X)` (R174): the ticks. -/
def ticksStaIdx : List Action := writeTicks .idx staStore

/-- 0x81 `STA ($nn,X)` (R174). -/
def execStaIdx (n : Byte) (s : State) : Result := runInstr (.staIdx n) ticksStaIdx s

/-- 0x85 `STA $nn` (R174): the ticks. -/
def ticksStaZp : List Action := writeTicks .zp staStore

/-- 0x85 `STA $nn` (R174). -/
def execStaZp (n : Byte) (s : State) : Result := runInstr (.staZp n) ticksStaZp s

/-- 0x8D `STA $nnnn` (R174): the ticks. -/
def ticksStaAbs : List Action := writeTicks .abs staStore

/-- 0x8D `STA $nnnn` (R174). -/
def execStaAbs (a : Word) (s : State) : Result := runInstr (.staAbs a) ticksStaAbs s

/-- 0x91 `STA ($nn),Y` (R174): the ticks. -/
def ticksStaIdy : List Action := writeTicks .idy staStore

/-- 0x91 `STA ($nn),Y` (R174). -/
def execStaIdy (n : Byte) (s : State) : Result := runInstr (.staIdy n) ticksStaIdy s

/-- 0x95 `STA $nn,X` (R174): the ticks. -/
def ticksStaZpx : List Action := writeTicks .zpx staStore

/-- 0x95 `STA $nn,X` (R174). -/
def execStaZpx (n : Byte) (s : State) : Result := runInstr (.staZpx n) ticksStaZpx s

/-- 0x99 `STA $nnnn,Y` (R174): the ticks. -/
def ticksStaAby : List Action := writeTicks .aby staStore

/-- 0x99 `STA $nnnn,Y` (R174). -/
def execStaAby (a : Word) (s : State) : Result := runInstr (.staAby a) ticksStaAby s

/-- 0x9D `STA $nnnn,X` (R174): the ticks. -/
def ticksStaAbx : List Action := writeTicks .abx staStore

/-- 0x9D `STA $nnnn,X` (R174). -/
def execStaAbx (a : Word) (s : State) : Result := runInstr (.staAbx a) ticksStaAbx s

/-- R175: `dout <- X; WR`. -/
def stxStore : State → State := fun s => s.drive s.x

/-- 0x86 `STX $nn` (R175): the ticks. -/
def ticksStxZp : List Action := writeTicks .zp stxStore

/-- 0x86 `STX $nn` (R175). -/
def execStxZp (n : Byte) (s : State) : Result := runInstr (.stxZp n) ticksStxZp s

/-- 0x8E `STX $nnnn` (R175): the ticks. -/
def ticksStxAbs : List Action := writeTicks .abs stxStore

/-- 0x8E `STX $nnnn` (R175). -/
def execStxAbs (a : Word) (s : State) : Result := runInstr (.stxAbs a) ticksStxAbs s

/-- 0x96 `STX $nn,Y` (R175): the ticks. -/
def ticksStxZpy : List Action := writeTicks .zpy stxStore

/-- 0x96 `STX $nn,Y` (R175). -/
def execStxZpy (n : Byte) (s : State) : Result := runInstr (.stxZpy n) ticksStxZpy s

/-- R176: `dout <- Y; WR`. -/
def styStore : State → State := fun s => s.drive s.y

/-- 0x84 `STY $nn` (R176): the ticks. -/
def ticksStyZp : List Action := writeTicks .zp styStore

/-- 0x84 `STY $nn` (R176). -/
def execStyZp (n : Byte) (s : State) : Result := runInstr (.styZp n) ticksStyZp s

/-- 0x8C `STY $nnnn` (R176): the ticks. -/
def ticksStyAbs : List Action := writeTicks .abs styStore

/-- 0x8C `STY $nnnn` (R176). -/
def execStyAbs (a : Word) (s : State) : Result := runInstr (.styAbs a) ticksStyAbs s

/-- 0x94 `STY $nn,X` (R176): the ticks. -/
def ticksStyZpx : List Action := writeTicks .zpx styStore

/-- 0x94 `STY $nn,X` (R176). -/
def execStyZpx (n : Byte) (s : State) : Result := runInstr (.styZpx n) ticksStyZpx s

/-! ### Register transfers (R177-R182) -/

/-- R177: `X <- A; NZ(X)`. -/
def taxOp : State → State := fun s => s.loadX s.a

/-- 0xAA `TAX` (R177): the ticks. -/
def ticksTax : List Action := impliedTicks taxOp

/-- 0xAA `TAX` (R177). -/
def execTax (s : State) : Result := runInstr .tax ticksTax s

/-- R178: `Y <- A; NZ(Y)`. -/
def tayOp : State → State := fun s => s.loadY s.a

/-- 0xA8 `TAY` (R178): the ticks. -/
def ticksTay : List Action := impliedTicks tayOp

/-- 0xA8 `TAY` (R178). -/
def execTay (s : State) : Result := runInstr .tay ticksTay s

/-- R179: `A <- X; NZ(A)`. -/
def txaOp : State → State := fun s => s.loadA s.x

/-- 0x8A `TXA` (R179): the ticks. -/
def ticksTxa : List Action := impliedTicks txaOp

/-- 0x8A `TXA` (R179). -/
def execTxa (s : State) : Result := runInstr .txa ticksTxa s

/-- R180: `A <- Y; NZ(A)`. -/
def tyaOp : State → State := fun s => s.loadA s.y

/-- 0x98 `TYA` (R180): the ticks. -/
def ticksTya : List Action := impliedTicks tyaOp

/-- 0x98 `TYA` (R180). -/
def execTya (s : State) : Result := runInstr .tya ticksTya s

/-- R181: `X <- S; NZ(X)`. -/
def tsxOp : State → State := fun s => s.loadX s.sp

/-- 0xBA `TSX` (R181): the ticks. -/
def ticksTsx : List Action := impliedTicks tsxOp

/-- 0xBA `TSX` (R181). -/
def execTsx (s : State) : Result := runInstr .tsx ticksTsx s

/-- R182: `S <- X`. No flag changes (90_conflicts.md C4). -/
def txsOp : State → State := fun s => { s with sp := s.x }

/-- 0x9A `TXS` (R182): the ticks. -/
def ticksTxs : List Action := impliedTicks txsOp

/-- 0x9A `TXS` (R182). -/
def execTxs (s : State) : Result := runInstr .txs ticksTxs s

/-! ### Flag instructions (R183-R189) -/

/-- R183: `P.C <- 0`. -/
def clcOp : State → State := fun s => s.withFlag .c false

/-- 0x18 `CLC` (R183): the ticks. -/
def ticksClc : List Action := impliedTicks clcOp

/-- 0x18 `CLC` (R183). -/
def execClc (s : State) : Result := runInstr .clc ticksClc s

/-- R184: `P.C <- 1`. -/
def secOp : State → State := fun s => s.withFlag .c true

/-- 0x38 `SEC` (R184): the ticks. -/
def ticksSec : List Action := impliedTicks secOp

/-- 0x38 `SEC` (R184). -/
def execSec (s : State) : Result := runInstr .sec ticksSec s

/-- R185: `P.I <- 0`. -/
def cliOp : State → State := fun s => s.withFlag .i false

/-- 0x58 `CLI` (R185): the ticks. -/
def ticksCli : List Action := impliedTicks cliOp

/-- 0x58 `CLI` (R185). -/
def execCli (s : State) : Result := runInstr .cli ticksCli s

/-- R186: `P.I <- 1`. -/
def seiOp : State → State := fun s => s.withFlag .i true

/-- 0x78 `SEI` (R186): the ticks. -/
def ticksSei : List Action := impliedTicks seiOp

/-- 0x78 `SEI` (R186). -/
def execSei (s : State) : Result := runInstr .sei ticksSei s

/-- R187: `P.D <- 0`. -/
def cldOp : State → State := fun s => s.withFlag .d false

/-- 0xD8 `CLD` (R187): the ticks. -/
def ticksCld : List Action := impliedTicks cldOp

/-- 0xD8 `CLD` (R187). -/
def execCld (s : State) : Result := runInstr .cld ticksCld s

/-- R188: `P.D <- 1`. -/
def sedOp : State → State := fun s => s.withFlag .d true

/-- 0xF8 `SED` (R188): the ticks. -/
def ticksSed : List Action := impliedTicks sedOp

/-- 0xF8 `SED` (R188). -/
def execSed (s : State) : Result := runInstr .sed ticksSed s

/-- R189: `P.V <- 0`. -/
def clvOp : State → State := fun s => s.withFlag .v false

/-- 0xB8 `CLV` (R189): the ticks. -/
def ticksClv : List Action := impliedTicks clvOp

/-- 0xB8 `CLV` (R189). -/
def execClv (s : State) : Result := runInstr .clv ticksClv s

end Sys2Proof.Machine
end

