-- ==== Sys2Proof/Machine/Arith.lean ====
section
/-!
DEFINITION. Logic, arithmetic, compare, increment and shift instructions (43_arith_logic_rmw.md R200-R220; the opcode
0xEB of 45_undocumented.md R281): each instruction's microprogram (`ticks…`) and its meaning (`exec…`).
-/
namespace Sys2Proof.Machine

/-! ### Logic, add and subtract (R200-R204) -/

/-- R200: `A <- A | Dbus; NZ(A)`. -/
def oraOp : Action := fun c s => s.loadA (s.a ||| c.dbus)

/-- 0x01 `ORA ($nn,X)` (R200): the ticks. -/
def ticksOraIdx : List Action := readTicks .idx oraOp

/-- 0x01 `ORA ($nn,X)` (R200). -/
def execOraIdx (n : Byte) (s : State) : Result := runInstr (.oraIdx n) ticksOraIdx s

/-- 0x05 `ORA $nn` (R200): the ticks. -/
def ticksOraZp : List Action := readTicks .zp oraOp

/-- 0x05 `ORA $nn` (R200). -/
def execOraZp (n : Byte) (s : State) : Result := runInstr (.oraZp n) ticksOraZp s

/-- 0x09 `ORA #$nn` (R200): the ticks. -/
def ticksOraImm : List Action := readTicks .imm oraOp

/-- 0x09 `ORA #$nn` (R200). -/
def execOraImm (n : Byte) (s : State) : Result := runInstr (.oraImm n) ticksOraImm s

/-- 0x0D `ORA $nnnn` (R200): the ticks. -/
def ticksOraAbs : List Action := readTicks .abs oraOp

/-- 0x0D `ORA $nnnn` (R200). -/
def execOraAbs (a : Word) (s : State) : Result := runInstr (.oraAbs a) ticksOraAbs s

/-- 0x11 `ORA ($nn),Y` (R200): the ticks. -/
def ticksOraIdy : List Action := readTicks .idy oraOp

/-- 0x11 `ORA ($nn),Y` (R200). -/
def execOraIdy (n : Byte) (s : State) : Result := runInstr (.oraIdy n) ticksOraIdy s

/-- 0x15 `ORA $nn,X` (R200): the ticks. -/
def ticksOraZpx : List Action := readTicks .zpx oraOp

/-- 0x15 `ORA $nn,X` (R200). -/
def execOraZpx (n : Byte) (s : State) : Result := runInstr (.oraZpx n) ticksOraZpx s

/-- 0x19 `ORA $nnnn,Y` (R200): the ticks. -/
def ticksOraAby : List Action := readTicks .aby oraOp

/-- 0x19 `ORA $nnnn,Y` (R200). -/
def execOraAby (a : Word) (s : State) : Result := runInstr (.oraAby a) ticksOraAby s

/-- 0x1D `ORA $nnnn,X` (R200): the ticks. -/
def ticksOraAbx : List Action := readTicks .abx oraOp

/-- 0x1D `ORA $nnnn,X` (R200). -/
def execOraAbx (a : Word) (s : State) : Result := runInstr (.oraAbx a) ticksOraAbx s

/-- R201: `A <- A & Dbus; NZ(A)`. -/
def andOp : Action := fun c s => s.loadA (s.a &&& c.dbus)

/-- 0x21 `AND ($nn,X)` (R201): the ticks. -/
def ticksAndIdx : List Action := readTicks .idx andOp

/-- 0x21 `AND ($nn,X)` (R201). -/
def execAndIdx (n : Byte) (s : State) : Result := runInstr (.andIdx n) ticksAndIdx s

/-- 0x25 `AND $nn` (R201): the ticks. -/
def ticksAndZp : List Action := readTicks .zp andOp

/-- 0x25 `AND $nn` (R201). -/
def execAndZp (n : Byte) (s : State) : Result := runInstr (.andZp n) ticksAndZp s

/-- 0x29 `AND #$nn` (R201): the ticks. -/
def ticksAndImm : List Action := readTicks .imm andOp

/-- 0x29 `AND #$nn` (R201). -/
def execAndImm (n : Byte) (s : State) : Result := runInstr (.andImm n) ticksAndImm s

/-- 0x2D `AND $nnnn` (R201): the ticks. -/
def ticksAndAbs : List Action := readTicks .abs andOp

/-- 0x2D `AND $nnnn` (R201). -/
def execAndAbs (a : Word) (s : State) : Result := runInstr (.andAbs a) ticksAndAbs s

/-- 0x31 `AND ($nn),Y` (R201): the ticks. -/
def ticksAndIdy : List Action := readTicks .idy andOp

/-- 0x31 `AND ($nn),Y` (R201). -/
def execAndIdy (n : Byte) (s : State) : Result := runInstr (.andIdy n) ticksAndIdy s

/-- 0x35 `AND $nn,X` (R201): the ticks. -/
def ticksAndZpx : List Action := readTicks .zpx andOp

/-- 0x35 `AND $nn,X` (R201). -/
def execAndZpx (n : Byte) (s : State) : Result := runInstr (.andZpx n) ticksAndZpx s

/-- 0x39 `AND $nnnn,Y` (R201): the ticks. -/
def ticksAndAby : List Action := readTicks .aby andOp

/-- 0x39 `AND $nnnn,Y` (R201). -/
def execAndAby (a : Word) (s : State) : Result := runInstr (.andAby a) ticksAndAby s

/-- 0x3D `AND $nnnn,X` (R201): the ticks. -/
def ticksAndAbx : List Action := readTicks .abx andOp

/-- 0x3D `AND $nnnn,X` (R201). -/
def execAndAbx (a : Word) (s : State) : Result := runInstr (.andAbx a) ticksAndAbx s

/-- R202: `A <- A ^ Dbus; NZ(A)`. -/
def eorOp : Action := fun c s => s.loadA (s.a ^^^ c.dbus)

/-- 0x41 `EOR ($nn,X)` (R202): the ticks. -/
def ticksEorIdx : List Action := readTicks .idx eorOp

/-- 0x41 `EOR ($nn,X)` (R202). -/
def execEorIdx (n : Byte) (s : State) : Result := runInstr (.eorIdx n) ticksEorIdx s

/-- 0x45 `EOR $nn` (R202): the ticks. -/
def ticksEorZp : List Action := readTicks .zp eorOp

/-- 0x45 `EOR $nn` (R202). -/
def execEorZp (n : Byte) (s : State) : Result := runInstr (.eorZp n) ticksEorZp s

/-- 0x49 `EOR #$nn` (R202): the ticks. -/
def ticksEorImm : List Action := readTicks .imm eorOp

/-- 0x49 `EOR #$nn` (R202). -/
def execEorImm (n : Byte) (s : State) : Result := runInstr (.eorImm n) ticksEorImm s

/-- 0x4D `EOR $nnnn` (R202): the ticks. -/
def ticksEorAbs : List Action := readTicks .abs eorOp

/-- 0x4D `EOR $nnnn` (R202). -/
def execEorAbs (a : Word) (s : State) : Result := runInstr (.eorAbs a) ticksEorAbs s

/-- 0x51 `EOR ($nn),Y` (R202): the ticks. -/
def ticksEorIdy : List Action := readTicks .idy eorOp

/-- 0x51 `EOR ($nn),Y` (R202). -/
def execEorIdy (n : Byte) (s : State) : Result := runInstr (.eorIdy n) ticksEorIdy s

/-- 0x55 `EOR $nn,X` (R202): the ticks. -/
def ticksEorZpx : List Action := readTicks .zpx eorOp

/-- 0x55 `EOR $nn,X` (R202). -/
def execEorZpx (n : Byte) (s : State) : Result := runInstr (.eorZpx n) ticksEorZpx s

/-- 0x59 `EOR $nnnn,Y` (R202): the ticks. -/
def ticksEorAby : List Action := readTicks .aby eorOp

/-- 0x59 `EOR $nnnn,Y` (R202). -/
def execEorAby (a : Word) (s : State) : Result := runInstr (.eorAby a) ticksEorAby s

/-- 0x5D `EOR $nnnn,X` (R202): the ticks. -/
def ticksEorAbx : List Action := readTicks .abx eorOp

/-- 0x5D `EOR $nnnn,X` (R202). -/
def execEorAbx (a : Word) (s : State) : Result := runInstr (.eorAbx a) ticksEorAbx s

/-- R203: `A <- A + Dbus + C`, binary or decimal by P.D; N, V, Z, C. -/
def adcOp : Action := fun c s => s.addToA .adc c.dbus

/-- 0x61 `ADC ($nn,X)` (R203): the ticks. -/
def ticksAdcIdx : List Action := readTicks .idx adcOp

/-- 0x61 `ADC ($nn,X)` (R203). -/
def execAdcIdx (n : Byte) (s : State) : Result := runInstr (.adcIdx n) ticksAdcIdx s

/-- 0x65 `ADC $nn` (R203): the ticks. -/
def ticksAdcZp : List Action := readTicks .zp adcOp

/-- 0x65 `ADC $nn` (R203). -/
def execAdcZp (n : Byte) (s : State) : Result := runInstr (.adcZp n) ticksAdcZp s

/-- 0x69 `ADC #$nn` (R203): the ticks. -/
def ticksAdcImm : List Action := readTicks .imm adcOp

/-- 0x69 `ADC #$nn` (R203). -/
def execAdcImm (n : Byte) (s : State) : Result := runInstr (.adcImm n) ticksAdcImm s

/-- 0x6D `ADC $nnnn` (R203): the ticks. -/
def ticksAdcAbs : List Action := readTicks .abs adcOp

/-- 0x6D `ADC $nnnn` (R203). -/
def execAdcAbs (a : Word) (s : State) : Result := runInstr (.adcAbs a) ticksAdcAbs s

/-- 0x71 `ADC ($nn),Y` (R203): the ticks. -/
def ticksAdcIdy : List Action := readTicks .idy adcOp

/-- 0x71 `ADC ($nn),Y` (R203). -/
def execAdcIdy (n : Byte) (s : State) : Result := runInstr (.adcIdy n) ticksAdcIdy s

/-- 0x75 `ADC $nn,X` (R203): the ticks. -/
def ticksAdcZpx : List Action := readTicks .zpx adcOp

/-- 0x75 `ADC $nn,X` (R203). -/
def execAdcZpx (n : Byte) (s : State) : Result := runInstr (.adcZpx n) ticksAdcZpx s

/-- 0x79 `ADC $nnnn,Y` (R203): the ticks. -/
def ticksAdcAby : List Action := readTicks .aby adcOp

/-- 0x79 `ADC $nnnn,Y` (R203). -/
def execAdcAby (a : Word) (s : State) : Result := runInstr (.adcAby a) ticksAdcAby s

/-- 0x7D `ADC $nnnn,X` (R203): the ticks. -/
def ticksAdcAbx : List Action := readTicks .abx adcOp

/-- 0x7D `ADC $nnnn,X` (R203). -/
def execAdcAbx (a : Word) (s : State) : Result := runInstr (.adcAbx a) ticksAdcAbx s

/-- R204, R281: `A <- A - Dbus - (1 - C)`, binary or decimal by P.D; N, V, Z, C. -/
def sbcOp : Action := fun c s => s.subtractFromA .sbc c.dbus

/-- 0xE1 `SBC ($nn,X)` (R204): the ticks. -/
def ticksSbcIdx : List Action := readTicks .idx sbcOp

/-- 0xE1 `SBC ($nn,X)` (R204). -/
def execSbcIdx (n : Byte) (s : State) : Result := runInstr (.sbcIdx n) ticksSbcIdx s

/-- 0xE5 `SBC $nn` (R204): the ticks. -/
def ticksSbcZp : List Action := readTicks .zp sbcOp

/-- 0xE5 `SBC $nn` (R204). -/
def execSbcZp (n : Byte) (s : State) : Result := runInstr (.sbcZp n) ticksSbcZp s

/-- 0xE9 `SBC #$nn` (R204): the ticks. -/
def ticksSbcImm : List Action := readTicks .imm sbcOp

/-- 0xE9 `SBC #$nn` (R204). -/
def execSbcImm (n : Byte) (s : State) : Result := runInstr (.sbcImm n) ticksSbcImm s

/-- 0xEB `SBC #$nn` (R281): the ticks. -/
def ticksSbcImmEB : List Action := readTicks .imm sbcOp

/-- 0xEB `SBC #$nn` (R281). -/
def execSbcImmEB (n : Byte) (s : State) : Result := runInstr (.sbcImmEB n) ticksSbcImmEB s

/-- 0xED `SBC $nnnn` (R204): the ticks. -/
def ticksSbcAbs : List Action := readTicks .abs sbcOp

/-- 0xED `SBC $nnnn` (R204). -/
def execSbcAbs (a : Word) (s : State) : Result := runInstr (.sbcAbs a) ticksSbcAbs s

/-- 0xF1 `SBC ($nn),Y` (R204): the ticks. -/
def ticksSbcIdy : List Action := readTicks .idy sbcOp

/-- 0xF1 `SBC ($nn),Y` (R204). -/
def execSbcIdy (n : Byte) (s : State) : Result := runInstr (.sbcIdy n) ticksSbcIdy s

/-- 0xF5 `SBC $nn,X` (R204): the ticks. -/
def ticksSbcZpx : List Action := readTicks .zpx sbcOp

/-- 0xF5 `SBC $nn,X` (R204). -/
def execSbcZpx (n : Byte) (s : State) : Result := runInstr (.sbcZpx n) ticksSbcZpx s

/-- 0xF9 `SBC $nnnn,Y` (R204): the ticks. -/
def ticksSbcAby : List Action := readTicks .aby sbcOp

/-- 0xF9 `SBC $nnnn,Y` (R204). -/
def execSbcAby (a : Word) (s : State) : Result := runInstr (.sbcAby a) ticksSbcAby s

/-- 0xFD `SBC $nnnn,X` (R204): the ticks. -/
def ticksSbcAbx : List Action := readTicks .abx sbcOp

/-- 0xFD `SBC $nnnn,X` (R204). -/
def execSbcAbx (a : Word) (s : State) : Result := runInstr (.sbcAbx a) ticksSbcAbx s

/-! ### Compare and bit test (R205-R208) -/

/-- R205: `cmp(A, Dbus)`. -/
def cmpOp : Action := fun c s => s.compare s.a c.dbus

/-- 0xC1 `CMP ($nn,X)` (R205): the ticks. -/
def ticksCmpIdx : List Action := readTicks .idx cmpOp

/-- 0xC1 `CMP ($nn,X)` (R205). -/
def execCmpIdx (n : Byte) (s : State) : Result := runInstr (.cmpIdx n) ticksCmpIdx s

/-- 0xC5 `CMP $nn` (R205): the ticks. -/
def ticksCmpZp : List Action := readTicks .zp cmpOp

/-- 0xC5 `CMP $nn` (R205). -/
def execCmpZp (n : Byte) (s : State) : Result := runInstr (.cmpZp n) ticksCmpZp s

/-- 0xC9 `CMP #$nn` (R205): the ticks. -/
def ticksCmpImm : List Action := readTicks .imm cmpOp

/-- 0xC9 `CMP #$nn` (R205). -/
def execCmpImm (n : Byte) (s : State) : Result := runInstr (.cmpImm n) ticksCmpImm s

/-- 0xCD `CMP $nnnn` (R205): the ticks. -/
def ticksCmpAbs : List Action := readTicks .abs cmpOp

/-- 0xCD `CMP $nnnn` (R205). -/
def execCmpAbs (a : Word) (s : State) : Result := runInstr (.cmpAbs a) ticksCmpAbs s

/-- 0xD1 `CMP ($nn),Y` (R205): the ticks. -/
def ticksCmpIdy : List Action := readTicks .idy cmpOp

/-- 0xD1 `CMP ($nn),Y` (R205). -/
def execCmpIdy (n : Byte) (s : State) : Result := runInstr (.cmpIdy n) ticksCmpIdy s

/-- 0xD5 `CMP $nn,X` (R205): the ticks. -/
def ticksCmpZpx : List Action := readTicks .zpx cmpOp

/-- 0xD5 `CMP $nn,X` (R205). -/
def execCmpZpx (n : Byte) (s : State) : Result := runInstr (.cmpZpx n) ticksCmpZpx s

/-- 0xD9 `CMP $nnnn,Y` (R205): the ticks. -/
def ticksCmpAby : List Action := readTicks .aby cmpOp

/-- 0xD9 `CMP $nnnn,Y` (R205). -/
def execCmpAby (a : Word) (s : State) : Result := runInstr (.cmpAby a) ticksCmpAby s

/-- 0xDD `CMP $nnnn,X` (R205): the ticks. -/
def ticksCmpAbx : List Action := readTicks .abx cmpOp

/-- 0xDD `CMP $nnnn,X` (R205). -/
def execCmpAbx (a : Word) (s : State) : Result := runInstr (.cmpAbx a) ticksCmpAbx s

/-- R206: `cmp(X, Dbus)`. -/
def cpxOp : Action := fun c s => s.compare s.x c.dbus

/-- 0xE0 `CPX #$nn` (R206): the ticks. -/
def ticksCpxImm : List Action := readTicks .imm cpxOp

/-- 0xE0 `CPX #$nn` (R206). -/
def execCpxImm (n : Byte) (s : State) : Result := runInstr (.cpxImm n) ticksCpxImm s

/-- 0xE4 `CPX $nn` (R206): the ticks. -/
def ticksCpxZp : List Action := readTicks .zp cpxOp

/-- 0xE4 `CPX $nn` (R206). -/
def execCpxZp (n : Byte) (s : State) : Result := runInstr (.cpxZp n) ticksCpxZp s

/-- 0xEC `CPX $nnnn` (R206): the ticks. -/
def ticksCpxAbs : List Action := readTicks .abs cpxOp

/-- 0xEC `CPX $nnnn` (R206). -/
def execCpxAbs (a : Word) (s : State) : Result := runInstr (.cpxAbs a) ticksCpxAbs s

/-- R207: `cmp(Y, Dbus)`. -/
def cpyOp : Action := fun c s => s.compare s.y c.dbus

/-- 0xC0 `CPY #$nn` (R207): the ticks. -/
def ticksCpyImm : List Action := readTicks .imm cpyOp

/-- 0xC0 `CPY #$nn` (R207). -/
def execCpyImm (n : Byte) (s : State) : Result := runInstr (.cpyImm n) ticksCpyImm s

/-- 0xC4 `CPY $nn` (R207): the ticks. -/
def ticksCpyZp : List Action := readTicks .zp cpyOp

/-- 0xC4 `CPY $nn` (R207). -/
def execCpyZp (n : Byte) (s : State) : Result := runInstr (.cpyZp n) ticksCpyZp s

/-- 0xCC `CPY $nnnn` (R207): the ticks. -/
def ticksCpyAbs : List Action := readTicks .abs cpyOp

/-- 0xCC `CPY $nnnn` (R207). -/
def execCpyAbs (a : Word) (s : State) : Result := runInstr (.cpyAbs a) ticksCpyAbs s

/-- R208: `bit(A, Dbus)`. -/
def bitOp : Action := fun c s => { s with p := bitStatus s.p s.a c.dbus }

/-- 0x24 `BIT $nn` (R208): the ticks. -/
def ticksBitZp : List Action := readTicks .zp bitOp

/-- 0x24 `BIT $nn` (R208). -/
def execBitZp (n : Byte) (s : State) : Result := runInstr (.bitZp n) ticksBitZp s

/-- 0x2C `BIT $nnnn` (R208): the ticks. -/
def ticksBitAbs : List Action := readTicks .abs bitOp

/-- 0x2C `BIT $nnnn` (R208). -/
def execBitAbs (a : Word) (s : State) : Result := runInstr (.bitAbs a) ticksBitAbs s

/-! ### Register increment and decrement (R209-R212) -/

/-- R209: `X <- inc(X); NZ(X)`. -/
def inxOp : State → State := fun s => s.loadX (inc s.x)

/-- 0xE8 `INX` (R209): the ticks. -/
def ticksInx : List Action := impliedTicks inxOp

/-- 0xE8 `INX` (R209). -/
def execInx (s : State) : Result := runInstr .inx ticksInx s

/-- R210: `Y <- inc(Y); NZ(Y)`. -/
def inyOp : State → State := fun s => s.loadY (inc s.y)

/-- 0xC8 `INY` (R210): the ticks. -/
def ticksIny : List Action := impliedTicks inyOp

/-- 0xC8 `INY` (R210). -/
def execIny (s : State) : Result := runInstr .iny ticksIny s

/-- R211: `X <- dec(X); NZ(X)`. -/
def dexOp : State → State := fun s => s.loadX (dec s.x)

/-- 0xCA `DEX` (R211): the ticks. -/
def ticksDex : List Action := impliedTicks dexOp

/-- 0xCA `DEX` (R211). -/
def execDex (s : State) : Result := runInstr .dex ticksDex s

/-- R212: `Y <- dec(Y); NZ(Y)`. -/
def deyOp : State → State := fun s => s.loadY (dec s.y)

/-- 0x88 `DEY` (R212): the ticks. -/
def ticksDey : List Action := impliedTicks deyOp

/-- 0x88 `DEY` (R212). -/
def execDey (s : State) : Result := runInstr .dey ticksDey s

/-! ### Memory increment and decrement (R215, R216) -/

/-- R215: `v <- inc(AD[7:0]); NZ(v)`. -/
def incStep : Byte → State → Byte × State := fun v s => (inc v, s.nz (inc v))

/-- 0xE6 `INC $nn` (R215): the ticks. -/
def ticksIncZp : List Action := modifyTicks .zp incStep

/-- 0xE6 `INC $nn` (R215). -/
def execIncZp (n : Byte) (s : State) : Result := runInstr (.incZp n) ticksIncZp s

/-- 0xEE `INC $nnnn` (R215): the ticks. -/
def ticksIncAbs : List Action := modifyTicks .abs incStep

/-- 0xEE `INC $nnnn` (R215). -/
def execIncAbs (a : Word) (s : State) : Result := runInstr (.incAbs a) ticksIncAbs s

/-- 0xF6 `INC $nn,X` (R215): the ticks. -/
def ticksIncZpx : List Action := modifyTicks .zpx incStep

/-- 0xF6 `INC $nn,X` (R215). -/
def execIncZpx (n : Byte) (s : State) : Result := runInstr (.incZpx n) ticksIncZpx s

/-- 0xFE `INC $nnnn,X` (R215): the ticks. -/
def ticksIncAbx : List Action := modifyTicks .abx incStep

/-- 0xFE `INC $nnnn,X` (R215). -/
def execIncAbx (a : Word) (s : State) : Result := runInstr (.incAbx a) ticksIncAbx s

/-- R216: `v <- dec(AD[7:0]); NZ(v)`. -/
def decStep : Byte → State → Byte × State := fun v s => (dec v, s.nz (dec v))

/-- 0xC6 `DEC $nn` (R216): the ticks. -/
def ticksDecZp : List Action := modifyTicks .zp decStep

/-- 0xC6 `DEC $nn` (R216). -/
def execDecZp (n : Byte) (s : State) : Result := runInstr (.decZp n) ticksDecZp s

/-- 0xCE `DEC $nnnn` (R216): the ticks. -/
def ticksDecAbs : List Action := modifyTicks .abs decStep

/-- 0xCE `DEC $nnnn` (R216). -/
def execDecAbs (a : Word) (s : State) : Result := runInstr (.decAbs a) ticksDecAbs s

/-- 0xD6 `DEC $nn,X` (R216): the ticks. -/
def ticksDecZpx : List Action := modifyTicks .zpx decStep

/-- 0xD6 `DEC $nn,X` (R216). -/
def execDecZpx (n : Byte) (s : State) : Result := runInstr (.decZpx n) ticksDecZpx s

/-- 0xDE `DEC $nnnn,X` (R216): the ticks. -/
def ticksDecAbx : List Action := modifyTicks .abx decStep

/-- 0xDE `DEC $nnnn,X` (R216). -/
def execDecAbx (a : Word) (s : State) : Result := runInstr (.decAbx a) ticksDecAbx s

/-! ### Shifts and rotates (R213, R217-R220) -/

/-- R213: the accumulator form of a shift or rotate. -/
def shiftA (q : Byte × Bool) (s : State) : State := { s.shifted q with a := q.1 }

/-- R214: the memory form of a shift or rotate. -/
def shiftStep (q : Byte × Bool) (s : State) : Byte × State := (q.1, s.shifted q)

/-- R217: `A <- asl(A)`. -/
def aslAOp : State → State := fun s => shiftA (asl s.a) s

/-- R217: `v <- asl(AD[7:0])`. -/
def aslStep : Byte → State → Byte × State := fun v s => shiftStep (asl v) s

/-- 0x06 `ASL $nn` (R217): the ticks. -/
def ticksAslZp : List Action := modifyTicks .zp aslStep

/-- 0x06 `ASL $nn` (R217). -/
def execAslZp (n : Byte) (s : State) : Result := runInstr (.aslZp n) ticksAslZp s

/-- 0x0A `ASL A` (R217): the ticks. -/
def ticksAslA : List Action := impliedTicks aslAOp

/-- 0x0A `ASL A` (R217). -/
def execAslA (s : State) : Result := runInstr .aslA ticksAslA s

/-- 0x0E `ASL $nnnn` (R217): the ticks. -/
def ticksAslAbs : List Action := modifyTicks .abs aslStep

/-- 0x0E `ASL $nnnn` (R217). -/
def execAslAbs (a : Word) (s : State) : Result := runInstr (.aslAbs a) ticksAslAbs s

/-- 0x16 `ASL $nn,X` (R217): the ticks. -/
def ticksAslZpx : List Action := modifyTicks .zpx aslStep

/-- 0x16 `ASL $nn,X` (R217). -/
def execAslZpx (n : Byte) (s : State) : Result := runInstr (.aslZpx n) ticksAslZpx s

/-- 0x1E `ASL $nnnn,X` (R217): the ticks. -/
def ticksAslAbx : List Action := modifyTicks .abx aslStep

/-- 0x1E `ASL $nnnn,X` (R217). -/
def execAslAbx (a : Word) (s : State) : Result := runInstr (.aslAbx a) ticksAslAbx s

/-- R218: `A <- lsr(A)`. -/
def lsrAOp : State → State := fun s => shiftA (lsr s.a) s

/-- R218: `v <- lsr(AD[7:0])`. -/
def lsrStep : Byte → State → Byte × State := fun v s => shiftStep (lsr v) s

/-- 0x46 `LSR $nn` (R218): the ticks. -/
def ticksLsrZp : List Action := modifyTicks .zp lsrStep

/-- 0x46 `LSR $nn` (R218). -/
def execLsrZp (n : Byte) (s : State) : Result := runInstr (.lsrZp n) ticksLsrZp s

/-- 0x4A `LSR A` (R218): the ticks. -/
def ticksLsrA : List Action := impliedTicks lsrAOp

/-- 0x4A `LSR A` (R218). -/
def execLsrA (s : State) : Result := runInstr .lsrA ticksLsrA s

/-- 0x4E `LSR $nnnn` (R218): the ticks. -/
def ticksLsrAbs : List Action := modifyTicks .abs lsrStep

/-- 0x4E `LSR $nnnn` (R218). -/
def execLsrAbs (a : Word) (s : State) : Result := runInstr (.lsrAbs a) ticksLsrAbs s

/-- 0x56 `LSR $nn,X` (R218): the ticks. -/
def ticksLsrZpx : List Action := modifyTicks .zpx lsrStep

/-- 0x56 `LSR $nn,X` (R218). -/
def execLsrZpx (n : Byte) (s : State) : Result := runInstr (.lsrZpx n) ticksLsrZpx s

/-- 0x5E `LSR $nnnn,X` (R218): the ticks. -/
def ticksLsrAbx : List Action := modifyTicks .abx lsrStep

/-- 0x5E `LSR $nnnn,X` (R218). -/
def execLsrAbx (a : Word) (s : State) : Result := runInstr (.lsrAbx a) ticksLsrAbx s

/-- R219: `A <- rol(A, P.C)`. -/
def rolAOp : State → State := fun s => shiftA (rol s.a (s.flag .c)) s

/-- R219: `v <- rol(AD[7:0], P.C)`. -/
def rolStep : Byte → State → Byte × State := fun v s => shiftStep (rol v (s.flag .c)) s

/-- 0x26 `ROL $nn` (R219): the ticks. -/
def ticksRolZp : List Action := modifyTicks .zp rolStep

/-- 0x26 `ROL $nn` (R219). -/
def execRolZp (n : Byte) (s : State) : Result := runInstr (.rolZp n) ticksRolZp s

/-- 0x2A `ROL A` (R219): the ticks. -/
def ticksRolA : List Action := impliedTicks rolAOp

/-- 0x2A `ROL A` (R219). -/
def execRolA (s : State) : Result := runInstr .rolA ticksRolA s

/-- 0x2E `ROL $nnnn` (R219): the ticks. -/
def ticksRolAbs : List Action := modifyTicks .abs rolStep

/-- 0x2E `ROL $nnnn` (R219). -/
def execRolAbs (a : Word) (s : State) : Result := runInstr (.rolAbs a) ticksRolAbs s

/-- 0x36 `ROL $nn,X` (R219): the ticks. -/
def ticksRolZpx : List Action := modifyTicks .zpx rolStep

/-- 0x36 `ROL $nn,X` (R219). -/
def execRolZpx (n : Byte) (s : State) : Result := runInstr (.rolZpx n) ticksRolZpx s

/-- 0x3E `ROL $nnnn,X` (R219): the ticks. -/
def ticksRolAbx : List Action := modifyTicks .abx rolStep

/-- 0x3E `ROL $nnnn,X` (R219). -/
def execRolAbx (a : Word) (s : State) : Result := runInstr (.rolAbx a) ticksRolAbx s

/-- R220: `A <- ror(A, P.C)`. -/
def rorAOp : State → State := fun s => shiftA (ror s.a (s.flag .c)) s

/-- R220: `v <- ror(AD[7:0], P.C)`. -/
def rorStep : Byte → State → Byte × State := fun v s => shiftStep (ror v (s.flag .c)) s

/-- 0x66 `ROR $nn` (R220): the ticks. -/
def ticksRorZp : List Action := modifyTicks .zp rorStep

/-- 0x66 `ROR $nn` (R220). -/
def execRorZp (n : Byte) (s : State) : Result := runInstr (.rorZp n) ticksRorZp s

/-- 0x6A `ROR A` (R220): the ticks. -/
def ticksRorA : List Action := impliedTicks rorAOp

/-- 0x6A `ROR A` (R220). -/
def execRorA (s : State) : Result := runInstr .rorA ticksRorA s

/-- 0x6E `ROR $nnnn` (R220): the ticks. -/
def ticksRorAbs : List Action := modifyTicks .abs rorStep

/-- 0x6E `ROR $nnnn` (R220). -/
def execRorAbs (a : Word) (s : State) : Result := runInstr (.rorAbs a) ticksRorAbs s

/-- 0x76 `ROR $nn,X` (R220): the ticks. -/
def ticksRorZpx : List Action := modifyTicks .zpx rorStep

/-- 0x76 `ROR $nn,X` (R220). -/
def execRorZpx (n : Byte) (s : State) : Result := runInstr (.rorZpx n) ticksRorZpx s

/-- 0x7E `ROR $nnnn,X` (R220): the ticks. -/
def ticksRorAbx : List Action := modifyTicks .abx rorStep

/-- 0x7E `ROR $nnnn,X` (R220). -/
def execRorAbx (a : Word) (s : State) : Result := runInstr (.rorAbx a) ticksRorAbx s

end Sys2Proof.Machine
end

