-- ==== Sys2Proof/Machine/Undocumented.lean ====
section
/-!
DEFINITION. Undocumented opcodes and JAM (45_undocumented.md R260-R290; its NOPs stand in Control.lean and its opcode 0xEB in
Arith.lean): each instruction's microprogram (`ticks…`) and its meaning (`exec…`).
-/
namespace Sys2Proof.Machine

/-! ### Combined read-modify-write operations (R261-R264, R267, R268) -/

/-- R261: `v <- asl(AD[7:0]); A <- A | v; NZ(A)`. -/
def sloStep : Byte → State → Byte × State := 
  fun v s => ((asl v).1, (s.shifted (asl v)).loadA (s.a ||| (asl v).1))

/-- 0x03 `SLO ($nn,X)` (R261): the ticks. -/
def ticksSloIdx : List Action := modifyTicks .idx sloStep

/-- 0x03 `SLO ($nn,X)` (R261). -/
def execSloIdx (n : Byte) (s : State) : Result := runInstr (.sloIdx n) ticksSloIdx s

/-- 0x07 `SLO $nn` (R261): the ticks. -/
def ticksSloZp : List Action := modifyTicks .zp sloStep

/-- 0x07 `SLO $nn` (R261). -/
def execSloZp (n : Byte) (s : State) : Result := runInstr (.sloZp n) ticksSloZp s

/-- 0x0F `SLO $nnnn` (R261): the ticks. -/
def ticksSloAbs : List Action := modifyTicks .abs sloStep

/-- 0x0F `SLO $nnnn` (R261). -/
def execSloAbs (a : Word) (s : State) : Result := runInstr (.sloAbs a) ticksSloAbs s

/-- 0x13 `SLO ($nn),Y` (R261): the ticks. -/
def ticksSloIdy : List Action := modifyTicks .idy sloStep

/-- 0x13 `SLO ($nn),Y` (R261). -/
def execSloIdy (n : Byte) (s : State) : Result := runInstr (.sloIdy n) ticksSloIdy s

/-- 0x17 `SLO $nn,X` (R261): the ticks. -/
def ticksSloZpx : List Action := modifyTicks .zpx sloStep

/-- 0x17 `SLO $nn,X` (R261). -/
def execSloZpx (n : Byte) (s : State) : Result := runInstr (.sloZpx n) ticksSloZpx s

/-- 0x1B `SLO $nnnn,Y` (R261): the ticks. -/
def ticksSloAby : List Action := modifyTicks .aby sloStep

/-- 0x1B `SLO $nnnn,Y` (R261). -/
def execSloAby (a : Word) (s : State) : Result := runInstr (.sloAby a) ticksSloAby s

/-- 0x1F `SLO $nnnn,X` (R261): the ticks. -/
def ticksSloAbx : List Action := modifyTicks .abx sloStep

/-- 0x1F `SLO $nnnn,X` (R261). -/
def execSloAbx (a : Word) (s : State) : Result := runInstr (.sloAbx a) ticksSloAbx s

/-- R262: `v <- rol(AD[7:0], P.C); A <- A & v; NZ(A)`. -/
def rlaStep : Byte → State → Byte × State := 
  fun v s => ((rol v (s.flag .c)).1, (s.shifted (rol v (s.flag .c))).loadA (s.a &&& (rol v (s.flag .c)).1))

/-- 0x23 `RLA ($nn,X)` (R262): the ticks. -/
def ticksRlaIdx : List Action := modifyTicks .idx rlaStep

/-- 0x23 `RLA ($nn,X)` (R262). -/
def execRlaIdx (n : Byte) (s : State) : Result := runInstr (.rlaIdx n) ticksRlaIdx s

/-- 0x27 `RLA $nn` (R262): the ticks. -/
def ticksRlaZp : List Action := modifyTicks .zp rlaStep

/-- 0x27 `RLA $nn` (R262). -/
def execRlaZp (n : Byte) (s : State) : Result := runInstr (.rlaZp n) ticksRlaZp s

/-- 0x2F `RLA $nnnn` (R262): the ticks. -/
def ticksRlaAbs : List Action := modifyTicks .abs rlaStep

/-- 0x2F `RLA $nnnn` (R262). -/
def execRlaAbs (a : Word) (s : State) : Result := runInstr (.rlaAbs a) ticksRlaAbs s

/-- 0x33 `RLA ($nn),Y` (R262): the ticks. -/
def ticksRlaIdy : List Action := modifyTicks .idy rlaStep

/-- 0x33 `RLA ($nn),Y` (R262). -/
def execRlaIdy (n : Byte) (s : State) : Result := runInstr (.rlaIdy n) ticksRlaIdy s

/-- 0x37 `RLA $nn,X` (R262): the ticks. -/
def ticksRlaZpx : List Action := modifyTicks .zpx rlaStep

/-- 0x37 `RLA $nn,X` (R262). -/
def execRlaZpx (n : Byte) (s : State) : Result := runInstr (.rlaZpx n) ticksRlaZpx s

/-- 0x3B `RLA $nnnn,Y` (R262): the ticks. -/
def ticksRlaAby : List Action := modifyTicks .aby rlaStep

/-- 0x3B `RLA $nnnn,Y` (R262). -/
def execRlaAby (a : Word) (s : State) : Result := runInstr (.rlaAby a) ticksRlaAby s

/-- 0x3F `RLA $nnnn,X` (R262): the ticks. -/
def ticksRlaAbx : List Action := modifyTicks .abx rlaStep

/-- 0x3F `RLA $nnnn,X` (R262). -/
def execRlaAbx (a : Word) (s : State) : Result := runInstr (.rlaAbx a) ticksRlaAbx s

/-- R263: `v <- lsr(AD[7:0]); A <- A ^ v; NZ(A)`. -/
def sreStep : Byte → State → Byte × State := 
  fun v s => ((lsr v).1, (s.shifted (lsr v)).loadA (s.a ^^^ (lsr v).1))

/-- 0x43 `SRE ($nn,X)` (R263): the ticks. -/
def ticksSreIdx : List Action := modifyTicks .idx sreStep

/-- 0x43 `SRE ($nn,X)` (R263). -/
def execSreIdx (n : Byte) (s : State) : Result := runInstr (.sreIdx n) ticksSreIdx s

/-- 0x47 `SRE $nn` (R263): the ticks. -/
def ticksSreZp : List Action := modifyTicks .zp sreStep

/-- 0x47 `SRE $nn` (R263). -/
def execSreZp (n : Byte) (s : State) : Result := runInstr (.sreZp n) ticksSreZp s

/-- 0x4F `SRE $nnnn` (R263): the ticks. -/
def ticksSreAbs : List Action := modifyTicks .abs sreStep

/-- 0x4F `SRE $nnnn` (R263). -/
def execSreAbs (a : Word) (s : State) : Result := runInstr (.sreAbs a) ticksSreAbs s

/-- 0x53 `SRE ($nn),Y` (R263): the ticks. -/
def ticksSreIdy : List Action := modifyTicks .idy sreStep

/-- 0x53 `SRE ($nn),Y` (R263). -/
def execSreIdy (n : Byte) (s : State) : Result := runInstr (.sreIdy n) ticksSreIdy s

/-- 0x57 `SRE $nn,X` (R263): the ticks. -/
def ticksSreZpx : List Action := modifyTicks .zpx sreStep

/-- 0x57 `SRE $nn,X` (R263). -/
def execSreZpx (n : Byte) (s : State) : Result := runInstr (.sreZpx n) ticksSreZpx s

/-- 0x5B `SRE $nnnn,Y` (R263): the ticks. -/
def ticksSreAby : List Action := modifyTicks .aby sreStep

/-- 0x5B `SRE $nnnn,Y` (R263). -/
def execSreAby (a : Word) (s : State) : Result := runInstr (.sreAby a) ticksSreAby s

/-- 0x5F `SRE $nnnn,X` (R263): the ticks. -/
def ticksSreAbx : List Action := modifyTicks .abx sreStep

/-- 0x5F `SRE $nnnn,X` (R263). -/
def execSreAbx (a : Word) (s : State) : Result := runInstr (.sreAbx a) ticksSreAbx s

/-- R264: `v <- ror(AD[7:0], P.C)`, then ADC of v with the carry of the rotate: `A <- A + v + C`. -/
def rraStep : Byte → State → Byte × State := 
  fun v s => ((ror v (s.flag .c)).1, (s.shifted (ror v (s.flag .c))).addToA .rra (ror v (s.flag .c)).1)

/-- 0x63 `RRA ($nn,X)` (R264): the ticks. -/
def ticksRraIdx : List Action := modifyTicks .idx rraStep

/-- 0x63 `RRA ($nn,X)` (R264). -/
def execRraIdx (n : Byte) (s : State) : Result := runInstr (.rraIdx n) ticksRraIdx s

/-- 0x67 `RRA $nn` (R264): the ticks. -/
def ticksRraZp : List Action := modifyTicks .zp rraStep

/-- 0x67 `RRA $nn` (R264). -/
def execRraZp (n : Byte) (s : State) : Result := runInstr (.rraZp n) ticksRraZp s

/-- 0x6F `RRA $nnnn` (R264): the ticks. -/
def ticksRraAbs : List Action := modifyTicks .abs rraStep

/-- 0x6F `RRA $nnnn` (R264). -/
def execRraAbs (a : Word) (s : State) : Result := runInstr (.rraAbs a) ticksRraAbs s

/-- 0x73 `RRA ($nn),Y` (R264): the ticks. -/
def ticksRraIdy : List Action := modifyTicks .idy rraStep

/-- 0x73 `RRA ($nn),Y` (R264). -/
def execRraIdy (n : Byte) (s : State) : Result := runInstr (.rraIdy n) ticksRraIdy s

/-- 0x77 `RRA $nn,X` (R264): the ticks. -/
def ticksRraZpx : List Action := modifyTicks .zpx rraStep

/-- 0x77 `RRA $nn,X` (R264). -/
def execRraZpx (n : Byte) (s : State) : Result := runInstr (.rraZpx n) ticksRraZpx s

/-- 0x7B `RRA $nnnn,Y` (R264): the ticks. -/
def ticksRraAby : List Action := modifyTicks .aby rraStep

/-- 0x7B `RRA $nnnn,Y` (R264). -/
def execRraAby (a : Word) (s : State) : Result := runInstr (.rraAby a) ticksRraAby s

/-- 0x7F `RRA $nnnn,X` (R264): the ticks. -/
def ticksRraAbx : List Action := modifyTicks .abx rraStep

/-- 0x7F `RRA $nnnn,X` (R264). -/
def execRraAbx (a : Word) (s : State) : Result := runInstr (.rraAbx a) ticksRraAbx s

/-- R267: `v <- dec(AD[7:0]); cmp(A, v)`. -/
def dcpStep : Byte → State → Byte × State := fun v s => (dec v, s.compare s.a (dec v))

/-- 0xC3 `DCP ($nn,X)` (R267): the ticks. -/
def ticksDcpIdx : List Action := modifyTicks .idx dcpStep

/-- 0xC3 `DCP ($nn,X)` (R267). -/
def execDcpIdx (n : Byte) (s : State) : Result := runInstr (.dcpIdx n) ticksDcpIdx s

/-- 0xC7 `DCP $nn` (R267): the ticks. -/
def ticksDcpZp : List Action := modifyTicks .zp dcpStep

/-- 0xC7 `DCP $nn` (R267). -/
def execDcpZp (n : Byte) (s : State) : Result := runInstr (.dcpZp n) ticksDcpZp s

/-- 0xCF `DCP $nnnn` (R267): the ticks. -/
def ticksDcpAbs : List Action := modifyTicks .abs dcpStep

/-- 0xCF `DCP $nnnn` (R267). -/
def execDcpAbs (a : Word) (s : State) : Result := runInstr (.dcpAbs a) ticksDcpAbs s

/-- 0xD3 `DCP ($nn),Y` (R267): the ticks. -/
def ticksDcpIdy : List Action := modifyTicks .idy dcpStep

/-- 0xD3 `DCP ($nn),Y` (R267). -/
def execDcpIdy (n : Byte) (s : State) : Result := runInstr (.dcpIdy n) ticksDcpIdy s

/-- 0xD7 `DCP $nn,X` (R267): the ticks. -/
def ticksDcpZpx : List Action := modifyTicks .zpx dcpStep

/-- 0xD7 `DCP $nn,X` (R267). -/
def execDcpZpx (n : Byte) (s : State) : Result := runInstr (.dcpZpx n) ticksDcpZpx s

/-- 0xDB `DCP $nnnn,Y` (R267): the ticks. -/
def ticksDcpAby : List Action := modifyTicks .aby dcpStep

/-- 0xDB `DCP $nnnn,Y` (R267). -/
def execDcpAby (a : Word) (s : State) : Result := runInstr (.dcpAby a) ticksDcpAby s

/-- 0xDF `DCP $nnnn,X` (R267): the ticks. -/
def ticksDcpAbx : List Action := modifyTicks .abx dcpStep

/-- 0xDF `DCP $nnnn,X` (R267). -/
def execDcpAbx (a : Word) (s : State) : Result := runInstr (.dcpAbx a) ticksDcpAbx s

/-- R268: `v <- inc(AD[7:0])`, then SBC of v: `A <- A - v - (1 - C)`. -/
def isbStep : Byte → State → Byte × State := fun v s => (inc v, s.subtractFromA .isb (inc v))

/-- 0xE3 `ISB ($nn,X)` (R268): the ticks. -/
def ticksIsbIdx : List Action := modifyTicks .idx isbStep

/-- 0xE3 `ISB ($nn,X)` (R268). -/
def execIsbIdx (n : Byte) (s : State) : Result := runInstr (.isbIdx n) ticksIsbIdx s

/-- 0xE7 `ISB $nn` (R268): the ticks. -/
def ticksIsbZp : List Action := modifyTicks .zp isbStep

/-- 0xE7 `ISB $nn` (R268). -/
def execIsbZp (n : Byte) (s : State) : Result := runInstr (.isbZp n) ticksIsbZp s

/-- 0xEF `ISB $nnnn` (R268): the ticks. -/
def ticksIsbAbs : List Action := modifyTicks .abs isbStep

/-- 0xEF `ISB $nnnn` (R268). -/
def execIsbAbs (a : Word) (s : State) : Result := runInstr (.isbAbs a) ticksIsbAbs s

/-- 0xF3 `ISB ($nn),Y` (R268): the ticks. -/
def ticksIsbIdy : List Action := modifyTicks .idy isbStep

/-- 0xF3 `ISB ($nn),Y` (R268). -/
def execIsbIdy (n : Byte) (s : State) : Result := runInstr (.isbIdy n) ticksIsbIdy s

/-- 0xF7 `ISB $nn,X` (R268): the ticks. -/
def ticksIsbZpx : List Action := modifyTicks .zpx isbStep

/-- 0xF7 `ISB $nn,X` (R268). -/
def execIsbZpx (n : Byte) (s : State) : Result := runInstr (.isbZpx n) ticksIsbZpx s

/-- 0xFB `ISB $nnnn,Y` (R268): the ticks. -/
def ticksIsbAby : List Action := modifyTicks .aby isbStep

/-- 0xFB `ISB $nnnn,Y` (R268). -/
def execIsbAby (a : Word) (s : State) : Result := runInstr (.isbAby a) ticksIsbAby s

/-- 0xFF `ISB $nnnn,X` (R268): the ticks. -/
def ticksIsbAbx : List Action := modifyTicks .abx isbStep

/-- 0xFF `ISB $nnnn,X` (R268). -/
def execIsbAbx (a : Word) (s : State) : Result := runInstr (.isbAbx a) ticksIsbAbx s

/-! ### SAX and LAX (R265, R266) -/

/-- R265: `dout <- A & X; WR`. -/
def saxStore : State → State := fun s => s.drive (s.a &&& s.x)

/-- 0x83 `SAX ($nn,X)` (R265): the ticks. -/
def ticksSaxIdx : List Action := writeTicks .idx saxStore

/-- 0x83 `SAX ($nn,X)` (R265). -/
def execSaxIdx (n : Byte) (s : State) : Result := runInstr (.saxIdx n) ticksSaxIdx s

/-- 0x87 `SAX $nn` (R265): the ticks. -/
def ticksSaxZp : List Action := writeTicks .zp saxStore

/-- 0x87 `SAX $nn` (R265). -/
def execSaxZp (n : Byte) (s : State) : Result := runInstr (.saxZp n) ticksSaxZp s

/-- 0x8F `SAX $nnnn` (R265): the ticks. -/
def ticksSaxAbs : List Action := writeTicks .abs saxStore

/-- 0x8F `SAX $nnnn` (R265). -/
def execSaxAbs (a : Word) (s : State) : Result := runInstr (.saxAbs a) ticksSaxAbs s

/-- 0x97 `SAX $nn,Y` (R265): the ticks. -/
def ticksSaxZpy : List Action := writeTicks .zpy saxStore

/-- 0x97 `SAX $nn,Y` (R265). -/
def execSaxZpy (n : Byte) (s : State) : Result := runInstr (.saxZpy n) ticksSaxZpy s

/-- R266: `A <- Dbus; X <- Dbus; NZ(A)`. -/
def laxOp : Action := fun c s => { s.loadA c.dbus with x := c.dbus }

/-- 0xA3 `LAX ($nn,X)` (R266): the ticks. -/
def ticksLaxIdx : List Action := readTicks .idx laxOp

/-- 0xA3 `LAX ($nn,X)` (R266). -/
def execLaxIdx (n : Byte) (s : State) : Result := runInstr (.laxIdx n) ticksLaxIdx s

/-- 0xA7 `LAX $nn` (R266): the ticks. -/
def ticksLaxZp : List Action := readTicks .zp laxOp

/-- 0xA7 `LAX $nn` (R266). -/
def execLaxZp (n : Byte) (s : State) : Result := runInstr (.laxZp n) ticksLaxZp s

/-- 0xAF `LAX $nnnn` (R266): the ticks. -/
def ticksLaxAbs : List Action := readTicks .abs laxOp

/-- 0xAF `LAX $nnnn` (R266). -/
def execLaxAbs (a : Word) (s : State) : Result := runInstr (.laxAbs a) ticksLaxAbs s

/-- 0xB3 `LAX ($nn),Y` (R266): the ticks. -/
def ticksLaxIdy : List Action := readTicks .idy laxOp

/-- 0xB3 `LAX ($nn),Y` (R266). -/
def execLaxIdy (n : Byte) (s : State) : Result := runInstr (.laxIdy n) ticksLaxIdy s

/-- 0xB7 `LAX $nn,Y` (R266): the ticks. -/
def ticksLaxZpy : List Action := readTicks .zpy laxOp

/-- 0xB7 `LAX $nn,Y` (R266). -/
def execLaxZpy (n : Byte) (s : State) : Result := runInstr (.laxZpy n) ticksLaxZpy s

/-- 0xBF `LAX $nnnn,Y` (R266): the ticks. -/
def ticksLaxAby : List Action := readTicks .aby laxOp

/-- 0xBF `LAX $nnnn,Y` (R266). -/
def execLaxAby (a : Word) (s : State) : Result := runInstr (.laxAby a) ticksLaxAby s

/-! ### Immediate-mode combined operations (R269-R274) -/

/-- R269: `A <- A & Dbus; NZ(A); P.C <- A[7]`. -/
def ancOp : Action := fun c s => (s.loadA (s.a &&& c.dbus)).withFlag .c (s.a &&& c.dbus).msb

/-- 0x0B `ANC #$nn` (R269): the ticks. -/
def ticksAncImm0B : List Action := readTicks .imm ancOp

/-- 0x0B `ANC #$nn` (R269). -/
def execAncImm0B (n : Byte) (s : State) : Result := runInstr (.ancImm0B n) ticksAncImm0B s

/-- 0x2B `ANC #$nn` (R269): the ticks. -/
def ticksAncImm2B : List Action := readTicks .imm ancOp

/-- 0x2B `ANC #$nn` (R269). -/
def execAncImm2B (n : Byte) (s : State) : Result := runInstr (.ancImm2B n) ticksAncImm2B s

/-- R270: `A <- lsr(A & Dbus)`. -/
def asrOp : Action := fun c s => shiftA (lsr (s.a &&& c.dbus)) s

/-- 0x4B `ASR #$nn` (R270): the ticks. -/
def ticksAsrImm : List Action := readTicks .imm asrOp

/-- 0x4B `ASR #$nn` (R270). -/
def execAsrImm (n : Byte) (s : State) : Result := runInstr (.asrImm n) ticksAsrImm s

/-- R271: `arr(A, Dbus, P.C)`, binary or decimal by P.D: `A, N, V, Z, C`. -/
def arrOp : Action := fun c s => s.loadAlu (arrResult (s.flag .d) s.a c.dbus (s.flag .c))

/-- 0x6B `ARR #$nn` (R271): the ticks. -/
def ticksArrImm : List Action := readTicks .imm arrOp

/-- 0x6B `ARR #$nn` (R271). -/
def execArrImm (n : Byte) (s : State) : Result := runInstr (.arrImm n) ticksArrImm s

/-- R272: `A <- (A | MagicANE) & X & Dbus; NZ(A)`. -/
def aneOp : Action := fun c s => s.loadA ((s.a ||| Config.magicAne) &&& s.x &&& c.dbus)

/-- 0x8B `ANE #$nn` (R272): the ticks. -/
def ticksAneImm : List Action := readTicks .imm aneOp

/-- 0x8B `ANE #$nn` (R272). -/
def execAneImm (n : Byte) (s : State) : Result := runInstr (.aneImm n) ticksAneImm s

/-- R273: `A <- (A | MagicLXA) & Dbus; X <- A; NZ(A)`. -/
def lxaOp : Action := fun c s =>
    { s.loadA ((s.a ||| Config.magicLxa) &&& c.dbus) with x := (s.a ||| Config.magicLxa) &&& c.dbus }

/-- 0xAB `LXA #$nn` (R273): the ticks. -/
def ticksLxaImm : List Action := readTicks .imm lxaOp

/-- 0xAB `LXA #$nn` (R273). -/
def execLxaImm (n : Byte) (s : State) : Result := runInstr (.lxaImm n) ticksLxaImm s

/-- R274: `sbx(A, X, Dbus)`: `X, N, Z, C`. -/
def sbxOp : Action := fun c s => (s.loadX (sbx s.a s.x c.dbus).1).withFlag .c (sbx s.a s.x c.dbus).2

/-- 0xCB `SBX #$nn` (R274): the ticks. -/
def ticksSbxImm : List Action := readTicks .imm sbxOp

/-- 0xCB `SBX #$nn` (R274). -/
def execSbxImm (n : Byte) (s : State) : Result := runInstr (.sbxImm n) ticksSbxImm s

/-! ### Unstable stores (R275-R279) and LAS (R280) -/

/-- R275: `dout <- UnstableStore(op, A, X, Y, S, base, index); WR` at the carried address; AD holds the base. -/
def unstableDrive (op : UnstableOp) (index : State → Byte) (s : State) : State :=
  s.drive (Config.unstableStore op s.a s.x s.y s.sp s.ad (index s))

/-- R279: `S <- A & X`, then the store of R275 with the new S. -/
def shsStore : State → State := fun s => unstableDrive .shs State.y { s with sp := s.a &&& s.x }

/-- 0x93 `SHA ($nn),Y` (R276): the ticks. -/
def ticksShaIdy : List Action := writeTicks .idy (unstableDrive .sha State.y)

/-- 0x93 `SHA ($nn),Y` (R276). -/
def execShaIdy (n : Byte) (s : State) : Result := runInstr (.shaIdy n) ticksShaIdy s

/-- 0x9F `SHA $nnnn,Y` (R276): the ticks. -/
def ticksShaAby : List Action := writeTicks .aby (unstableDrive .sha State.y)

/-- 0x9F `SHA $nnnn,Y` (R276). -/
def execShaAby (a : Word) (s : State) : Result := runInstr (.shaAby a) ticksShaAby s

/-- 0x9E `SHX $nnnn,Y` (R277): the ticks. -/
def ticksShxAby : List Action := writeTicks .aby (unstableDrive .shx State.y)

/-- 0x9E `SHX $nnnn,Y` (R277). -/
def execShxAby (a : Word) (s : State) : Result := runInstr (.shxAby a) ticksShxAby s

/-- 0x9C `SHY $nnnn,X` (R278): the ticks. -/
def ticksShyAbx : List Action := writeTicks .abx (unstableDrive .shy State.x)

/-- 0x9C `SHY $nnnn,X` (R278). -/
def execShyAbx (a : Word) (s : State) : Result := runInstr (.shyAbx a) ticksShyAbx s

/-- 0x9B `SHS $nnnn,Y` (R279): the ticks. -/
def ticksShsAby : List Action := writeTicks .aby shsStore

/-- 0x9B `SHS $nnnn,Y` (R279). -/
def execShsAby (a : Word) (s : State) : Result := runInstr (.shsAby a) ticksShsAby s

/-- R280: `A <- Dbus & S; X <- A; S <- A; NZ(A)`. -/
def lasOp : Action := 
  fun c s => { s.loadA (c.dbus &&& s.sp) with x := c.dbus &&& s.sp, sp := c.dbus &&& s.sp }

/-- 0xBB `LAS $nnnn,Y` (R280): the ticks. -/
def ticksLasAby : List Action := readTicks .aby lasOp

/-- 0xBB `LAS $nnnn,Y` (R280). -/
def execLasAby (a : Word) (s : State) : Result := runInstr (.lasAby a) ticksLasAby s

/-! ### JAM (R290) -/

/-- R290: T1 of JAM, which repeats: address and data pins at all ones, IR stays. Where `JamResExits` holds, a tick that sees RES
performs a fetch besides (60_exceptions.md R326). -/
def jamTick : Action := fun c s =>
  let s := { s with addr := 0xFFFF, dout := 0xFF, ir := s.ir - 1 }
  if c.res && Config.jamResExits then s.fetch else s

/-- R290: the microprogram of a JAM: one more read, then the tick that repeats. -/
def jamTicks : List Action := [fun _ s => s.readAtPc, jamTick]

/-- 0x02 `JAM` (R290): the ticks. -/
def ticksJam02 : List Action := jamTicks

/-- 0x02 `JAM` (R290). -/
def execJam02 (s : State) : Result := runJam .jam02 ticksJam02 s

/-- 0x12 `JAM` (R290): the ticks. -/
def ticksJam12 : List Action := jamTicks

/-- 0x12 `JAM` (R290). -/
def execJam12 (s : State) : Result := runJam .jam12 ticksJam12 s

/-- 0x22 `JAM` (R290): the ticks. -/
def ticksJam22 : List Action := jamTicks

/-- 0x22 `JAM` (R290). -/
def execJam22 (s : State) : Result := runJam .jam22 ticksJam22 s

/-- 0x32 `JAM` (R290): the ticks. -/
def ticksJam32 : List Action := jamTicks

/-- 0x32 `JAM` (R290). -/
def execJam32 (s : State) : Result := runJam .jam32 ticksJam32 s

/-- 0x42 `JAM` (R290): the ticks. -/
def ticksJam42 : List Action := jamTicks

/-- 0x42 `JAM` (R290). -/
def execJam42 (s : State) : Result := runJam .jam42 ticksJam42 s

/-- 0x52 `JAM` (R290): the ticks. -/
def ticksJam52 : List Action := jamTicks

/-- 0x52 `JAM` (R290). -/
def execJam52 (s : State) : Result := runJam .jam52 ticksJam52 s

/-- 0x62 `JAM` (R290): the ticks. -/
def ticksJam62 : List Action := jamTicks

/-- 0x62 `JAM` (R290). -/
def execJam62 (s : State) : Result := runJam .jam62 ticksJam62 s

/-- 0x72 `JAM` (R290): the ticks. -/
def ticksJam72 : List Action := jamTicks

/-- 0x72 `JAM` (R290). -/
def execJam72 (s : State) : Result := runJam .jam72 ticksJam72 s

/-- 0x92 `JAM` (R290): the ticks. -/
def ticksJam92 : List Action := jamTicks

/-- 0x92 `JAM` (R290). -/
def execJam92 (s : State) : Result := runJam .jam92 ticksJam92 s

/-- 0xB2 `JAM` (R290): the ticks. -/
def ticksJamB2 : List Action := jamTicks

/-- 0xB2 `JAM` (R290). -/
def execJamB2 (s : State) : Result := runJam .jamB2 ticksJamB2 s

/-- 0xD2 `JAM` (R290): the ticks. -/
def ticksJamD2 : List Action := jamTicks

/-- 0xD2 `JAM` (R290). -/
def execJamD2 (s : State) : Result := runJam .jamD2 ticksJamD2 s

/-- 0xF2 `JAM` (R290): the ticks. -/
def ticksJamF2 : List Action := jamTicks

/-- 0xF2 `JAM` (R290). -/
def execJamF2 (s : State) : Result := runJam .jamF2 ticksJamF2 s

end Sys2Proof.Machine
end

