-- ==== Sys2Proof/Machine/Dispatch.lean ====
section
/-!
DEFINITION. The dispatch: one arm per instruction, each a call of that instruction's meaning.
-/
namespace Sys2Proof.Machine

def exec (i : Instr) (s : State) : Host.Outcome State Fault Refusal :=
  match i with
  | .brk => Sys2Proof.Machine.execBrk s
  | .oraIdx n => Sys2Proof.Machine.execOraIdx n s
  | .jam02 => Sys2Proof.Machine.execJam02 s
  | .sloIdx n => Sys2Proof.Machine.execSloIdx n s
  | .nopZp04 n => Sys2Proof.Machine.execNopZp04 n s
  | .oraZp n => Sys2Proof.Machine.execOraZp n s
  | .aslZp n => Sys2Proof.Machine.execAslZp n s
  | .sloZp n => Sys2Proof.Machine.execSloZp n s
  | .php => Sys2Proof.Machine.execPhp s
  | .oraImm n => Sys2Proof.Machine.execOraImm n s
  | .aslA => Sys2Proof.Machine.execAslA s
  | .ancImm0B n => Sys2Proof.Machine.execAncImm0B n s
  | .nopAbs0C a => Sys2Proof.Machine.execNopAbs0C a s
  | .oraAbs a => Sys2Proof.Machine.execOraAbs a s
  | .aslAbs a => Sys2Proof.Machine.execAslAbs a s
  | .sloAbs a => Sys2Proof.Machine.execSloAbs a s
  | .bpl o => Sys2Proof.Machine.execBpl o s
  | .oraIdy n => Sys2Proof.Machine.execOraIdy n s
  | .jam12 => Sys2Proof.Machine.execJam12 s
  | .sloIdy n => Sys2Proof.Machine.execSloIdy n s
  | .nopZpx14 n => Sys2Proof.Machine.execNopZpx14 n s
  | .oraZpx n => Sys2Proof.Machine.execOraZpx n s
  | .aslZpx n => Sys2Proof.Machine.execAslZpx n s
  | .sloZpx n => Sys2Proof.Machine.execSloZpx n s
  | .clc => Sys2Proof.Machine.execClc s
  | .oraAby a => Sys2Proof.Machine.execOraAby a s
  | .nop1A => Sys2Proof.Machine.execNop1A s
  | .sloAby a => Sys2Proof.Machine.execSloAby a s
  | .nopAbx1C a => Sys2Proof.Machine.execNopAbx1C a s
  | .oraAbx a => Sys2Proof.Machine.execOraAbx a s
  | .aslAbx a => Sys2Proof.Machine.execAslAbx a s
  | .sloAbx a => Sys2Proof.Machine.execSloAbx a s
  | .jsr a => Sys2Proof.Machine.execJsr a s
  | .andIdx n => Sys2Proof.Machine.execAndIdx n s
  | .jam22 => Sys2Proof.Machine.execJam22 s
  | .rlaIdx n => Sys2Proof.Machine.execRlaIdx n s
  | .bitZp n => Sys2Proof.Machine.execBitZp n s
  | .andZp n => Sys2Proof.Machine.execAndZp n s
  | .rolZp n => Sys2Proof.Machine.execRolZp n s
  | .rlaZp n => Sys2Proof.Machine.execRlaZp n s
  | .plp => Sys2Proof.Machine.execPlp s
  | .andImm n => Sys2Proof.Machine.execAndImm n s
  | .rolA => Sys2Proof.Machine.execRolA s
  | .ancImm2B n => Sys2Proof.Machine.execAncImm2B n s
  | .bitAbs a => Sys2Proof.Machine.execBitAbs a s
  | .andAbs a => Sys2Proof.Machine.execAndAbs a s
  | .rolAbs a => Sys2Proof.Machine.execRolAbs a s
  | .rlaAbs a => Sys2Proof.Machine.execRlaAbs a s
  | .bmi o => Sys2Proof.Machine.execBmi o s
  | .andIdy n => Sys2Proof.Machine.execAndIdy n s
  | .jam32 => Sys2Proof.Machine.execJam32 s
  | .rlaIdy n => Sys2Proof.Machine.execRlaIdy n s
  | .nopZpx34 n => Sys2Proof.Machine.execNopZpx34 n s
  | .andZpx n => Sys2Proof.Machine.execAndZpx n s
  | .rolZpx n => Sys2Proof.Machine.execRolZpx n s
  | .rlaZpx n => Sys2Proof.Machine.execRlaZpx n s
  | .sec => Sys2Proof.Machine.execSec s
  | .andAby a => Sys2Proof.Machine.execAndAby a s
  | .nop3A => Sys2Proof.Machine.execNop3A s
  | .rlaAby a => Sys2Proof.Machine.execRlaAby a s
  | .nopAbx3C a => Sys2Proof.Machine.execNopAbx3C a s
  | .andAbx a => Sys2Proof.Machine.execAndAbx a s
  | .rolAbx a => Sys2Proof.Machine.execRolAbx a s
  | .rlaAbx a => Sys2Proof.Machine.execRlaAbx a s
  | .rti => Sys2Proof.Machine.execRti s
  | .eorIdx n => Sys2Proof.Machine.execEorIdx n s
  | .jam42 => Sys2Proof.Machine.execJam42 s
  | .sreIdx n => Sys2Proof.Machine.execSreIdx n s
  | .nopZp44 n => Sys2Proof.Machine.execNopZp44 n s
  | .eorZp n => Sys2Proof.Machine.execEorZp n s
  | .lsrZp n => Sys2Proof.Machine.execLsrZp n s
  | .sreZp n => Sys2Proof.Machine.execSreZp n s
  | .pha => Sys2Proof.Machine.execPha s
  | .eorImm n => Sys2Proof.Machine.execEorImm n s
  | .lsrA => Sys2Proof.Machine.execLsrA s
  | .asrImm n => Sys2Proof.Machine.execAsrImm n s
  | .jmpAbs a => Sys2Proof.Machine.execJmpAbs a s
  | .eorAbs a => Sys2Proof.Machine.execEorAbs a s
  | .lsrAbs a => Sys2Proof.Machine.execLsrAbs a s
  | .sreAbs a => Sys2Proof.Machine.execSreAbs a s
  | .bvc o => Sys2Proof.Machine.execBvc o s
  | .eorIdy n => Sys2Proof.Machine.execEorIdy n s
  | .jam52 => Sys2Proof.Machine.execJam52 s
  | .sreIdy n => Sys2Proof.Machine.execSreIdy n s
  | .nopZpx54 n => Sys2Proof.Machine.execNopZpx54 n s
  | .eorZpx n => Sys2Proof.Machine.execEorZpx n s
  | .lsrZpx n => Sys2Proof.Machine.execLsrZpx n s
  | .sreZpx n => Sys2Proof.Machine.execSreZpx n s
  | .cli => Sys2Proof.Machine.execCli s
  | .eorAby a => Sys2Proof.Machine.execEorAby a s
  | .nop5A => Sys2Proof.Machine.execNop5A s
  | .sreAby a => Sys2Proof.Machine.execSreAby a s
  | .nopAbx5C a => Sys2Proof.Machine.execNopAbx5C a s
  | .eorAbx a => Sys2Proof.Machine.execEorAbx a s
  | .lsrAbx a => Sys2Proof.Machine.execLsrAbx a s
  | .sreAbx a => Sys2Proof.Machine.execSreAbx a s
  | .rts => Sys2Proof.Machine.execRts s
  | .adcIdx n => Sys2Proof.Machine.execAdcIdx n s
  | .jam62 => Sys2Proof.Machine.execJam62 s
  | .rraIdx n => Sys2Proof.Machine.execRraIdx n s
  | .nopZp64 n => Sys2Proof.Machine.execNopZp64 n s
  | .adcZp n => Sys2Proof.Machine.execAdcZp n s
  | .rorZp n => Sys2Proof.Machine.execRorZp n s
  | .rraZp n => Sys2Proof.Machine.execRraZp n s
  | .pla => Sys2Proof.Machine.execPla s
  | .adcImm n => Sys2Proof.Machine.execAdcImm n s
  | .rorA => Sys2Proof.Machine.execRorA s
  | .arrImm n => Sys2Proof.Machine.execArrImm n s
  | .jmpInd a => Sys2Proof.Machine.execJmpInd a s
  | .adcAbs a => Sys2Proof.Machine.execAdcAbs a s
  | .rorAbs a => Sys2Proof.Machine.execRorAbs a s
  | .rraAbs a => Sys2Proof.Machine.execRraAbs a s
  | .bvs o => Sys2Proof.Machine.execBvs o s
  | .adcIdy n => Sys2Proof.Machine.execAdcIdy n s
  | .jam72 => Sys2Proof.Machine.execJam72 s
  | .rraIdy n => Sys2Proof.Machine.execRraIdy n s
  | .nopZpx74 n => Sys2Proof.Machine.execNopZpx74 n s
  | .adcZpx n => Sys2Proof.Machine.execAdcZpx n s
  | .rorZpx n => Sys2Proof.Machine.execRorZpx n s
  | .rraZpx n => Sys2Proof.Machine.execRraZpx n s
  | .sei => Sys2Proof.Machine.execSei s
  | .adcAby a => Sys2Proof.Machine.execAdcAby a s
  | .nop7A => Sys2Proof.Machine.execNop7A s
  | .rraAby a => Sys2Proof.Machine.execRraAby a s
  | .nopAbx7C a => Sys2Proof.Machine.execNopAbx7C a s
  | .adcAbx a => Sys2Proof.Machine.execAdcAbx a s
  | .rorAbx a => Sys2Proof.Machine.execRorAbx a s
  | .rraAbx a => Sys2Proof.Machine.execRraAbx a s
  | .nopImm80 n => Sys2Proof.Machine.execNopImm80 n s
  | .staIdx n => Sys2Proof.Machine.execStaIdx n s
  | .nopImm82 n => Sys2Proof.Machine.execNopImm82 n s
  | .saxIdx n => Sys2Proof.Machine.execSaxIdx n s
  | .styZp n => Sys2Proof.Machine.execStyZp n s
  | .staZp n => Sys2Proof.Machine.execStaZp n s
  | .stxZp n => Sys2Proof.Machine.execStxZp n s
  | .saxZp n => Sys2Proof.Machine.execSaxZp n s
  | .dey => Sys2Proof.Machine.execDey s
  | .nopImm89 n => Sys2Proof.Machine.execNopImm89 n s
  | .txa => Sys2Proof.Machine.execTxa s
  | .aneImm n => Sys2Proof.Machine.execAneImm n s
  | .styAbs a => Sys2Proof.Machine.execStyAbs a s
  | .staAbs a => Sys2Proof.Machine.execStaAbs a s
  | .stxAbs a => Sys2Proof.Machine.execStxAbs a s
  | .saxAbs a => Sys2Proof.Machine.execSaxAbs a s
  | .bcc o => Sys2Proof.Machine.execBcc o s
  | .staIdy n => Sys2Proof.Machine.execStaIdy n s
  | .jam92 => Sys2Proof.Machine.execJam92 s
  | .shaIdy n => Sys2Proof.Machine.execShaIdy n s
  | .styZpx n => Sys2Proof.Machine.execStyZpx n s
  | .staZpx n => Sys2Proof.Machine.execStaZpx n s
  | .stxZpy n => Sys2Proof.Machine.execStxZpy n s
  | .saxZpy n => Sys2Proof.Machine.execSaxZpy n s
  | .tya => Sys2Proof.Machine.execTya s
  | .staAby a => Sys2Proof.Machine.execStaAby a s
  | .txs => Sys2Proof.Machine.execTxs s
  | .shsAby a => Sys2Proof.Machine.execShsAby a s
  | .shyAbx a => Sys2Proof.Machine.execShyAbx a s
  | .staAbx a => Sys2Proof.Machine.execStaAbx a s
  | .shxAby a => Sys2Proof.Machine.execShxAby a s
  | .shaAby a => Sys2Proof.Machine.execShaAby a s
  | .ldyImm n => Sys2Proof.Machine.execLdyImm n s
  | .ldaIdx n => Sys2Proof.Machine.execLdaIdx n s
  | .ldxImm n => Sys2Proof.Machine.execLdxImm n s
  | .laxIdx n => Sys2Proof.Machine.execLaxIdx n s
  | .ldyZp n => Sys2Proof.Machine.execLdyZp n s
  | .ldaZp n => Sys2Proof.Machine.execLdaZp n s
  | .ldxZp n => Sys2Proof.Machine.execLdxZp n s
  | .laxZp n => Sys2Proof.Machine.execLaxZp n s
  | .tay => Sys2Proof.Machine.execTay s
  | .ldaImm n => Sys2Proof.Machine.execLdaImm n s
  | .tax => Sys2Proof.Machine.execTax s
  | .lxaImm n => Sys2Proof.Machine.execLxaImm n s
  | .ldyAbs a => Sys2Proof.Machine.execLdyAbs a s
  | .ldaAbs a => Sys2Proof.Machine.execLdaAbs a s
  | .ldxAbs a => Sys2Proof.Machine.execLdxAbs a s
  | .laxAbs a => Sys2Proof.Machine.execLaxAbs a s
  | .bcs o => Sys2Proof.Machine.execBcs o s
  | .ldaIdy n => Sys2Proof.Machine.execLdaIdy n s
  | .jamB2 => Sys2Proof.Machine.execJamB2 s
  | .laxIdy n => Sys2Proof.Machine.execLaxIdy n s
  | .ldyZpx n => Sys2Proof.Machine.execLdyZpx n s
  | .ldaZpx n => Sys2Proof.Machine.execLdaZpx n s
  | .ldxZpy n => Sys2Proof.Machine.execLdxZpy n s
  | .laxZpy n => Sys2Proof.Machine.execLaxZpy n s
  | .clv => Sys2Proof.Machine.execClv s
  | .ldaAby a => Sys2Proof.Machine.execLdaAby a s
  | .tsx => Sys2Proof.Machine.execTsx s
  | .lasAby a => Sys2Proof.Machine.execLasAby a s
  | .ldyAbx a => Sys2Proof.Machine.execLdyAbx a s
  | .ldaAbx a => Sys2Proof.Machine.execLdaAbx a s
  | .ldxAby a => Sys2Proof.Machine.execLdxAby a s
  | .laxAby a => Sys2Proof.Machine.execLaxAby a s
  | .cpyImm n => Sys2Proof.Machine.execCpyImm n s
  | .cmpIdx n => Sys2Proof.Machine.execCmpIdx n s
  | .nopImmC2 n => Sys2Proof.Machine.execNopImmC2 n s
  | .dcpIdx n => Sys2Proof.Machine.execDcpIdx n s
  | .cpyZp n => Sys2Proof.Machine.execCpyZp n s
  | .cmpZp n => Sys2Proof.Machine.execCmpZp n s
  | .decZp n => Sys2Proof.Machine.execDecZp n s
  | .dcpZp n => Sys2Proof.Machine.execDcpZp n s
  | .iny => Sys2Proof.Machine.execIny s
  | .cmpImm n => Sys2Proof.Machine.execCmpImm n s
  | .dex => Sys2Proof.Machine.execDex s
  | .sbxImm n => Sys2Proof.Machine.execSbxImm n s
  | .cpyAbs a => Sys2Proof.Machine.execCpyAbs a s
  | .cmpAbs a => Sys2Proof.Machine.execCmpAbs a s
  | .decAbs a => Sys2Proof.Machine.execDecAbs a s
  | .dcpAbs a => Sys2Proof.Machine.execDcpAbs a s
  | .bne o => Sys2Proof.Machine.execBne o s
  | .cmpIdy n => Sys2Proof.Machine.execCmpIdy n s
  | .jamD2 => Sys2Proof.Machine.execJamD2 s
  | .dcpIdy n => Sys2Proof.Machine.execDcpIdy n s
  | .nopZpxD4 n => Sys2Proof.Machine.execNopZpxD4 n s
  | .cmpZpx n => Sys2Proof.Machine.execCmpZpx n s
  | .decZpx n => Sys2Proof.Machine.execDecZpx n s
  | .dcpZpx n => Sys2Proof.Machine.execDcpZpx n s
  | .cld => Sys2Proof.Machine.execCld s
  | .cmpAby a => Sys2Proof.Machine.execCmpAby a s
  | .nopDA => Sys2Proof.Machine.execNopDA s
  | .dcpAby a => Sys2Proof.Machine.execDcpAby a s
  | .nopAbxDC a => Sys2Proof.Machine.execNopAbxDC a s
  | .cmpAbx a => Sys2Proof.Machine.execCmpAbx a s
  | .decAbx a => Sys2Proof.Machine.execDecAbx a s
  | .dcpAbx a => Sys2Proof.Machine.execDcpAbx a s
  | .cpxImm n => Sys2Proof.Machine.execCpxImm n s
  | .sbcIdx n => Sys2Proof.Machine.execSbcIdx n s
  | .nopImmE2 n => Sys2Proof.Machine.execNopImmE2 n s
  | .isbIdx n => Sys2Proof.Machine.execIsbIdx n s
  | .cpxZp n => Sys2Proof.Machine.execCpxZp n s
  | .sbcZp n => Sys2Proof.Machine.execSbcZp n s
  | .incZp n => Sys2Proof.Machine.execIncZp n s
  | .isbZp n => Sys2Proof.Machine.execIsbZp n s
  | .inx => Sys2Proof.Machine.execInx s
  | .sbcImm n => Sys2Proof.Machine.execSbcImm n s
  | .nopEA => Sys2Proof.Machine.execNopEA s
  | .sbcImmEB n => Sys2Proof.Machine.execSbcImmEB n s
  | .cpxAbs a => Sys2Proof.Machine.execCpxAbs a s
  | .sbcAbs a => Sys2Proof.Machine.execSbcAbs a s
  | .incAbs a => Sys2Proof.Machine.execIncAbs a s
  | .isbAbs a => Sys2Proof.Machine.execIsbAbs a s
  | .beq o => Sys2Proof.Machine.execBeq o s
  | .sbcIdy n => Sys2Proof.Machine.execSbcIdy n s
  | .jamF2 => Sys2Proof.Machine.execJamF2 s
  | .isbIdy n => Sys2Proof.Machine.execIsbIdy n s
  | .nopZpxF4 n => Sys2Proof.Machine.execNopZpxF4 n s
  | .sbcZpx n => Sys2Proof.Machine.execSbcZpx n s
  | .incZpx n => Sys2Proof.Machine.execIncZpx n s
  | .isbZpx n => Sys2Proof.Machine.execIsbZpx n s
  | .sed => Sys2Proof.Machine.execSed s
  | .sbcAby a => Sys2Proof.Machine.execSbcAby a s
  | .nopFA => Sys2Proof.Machine.execNopFA s
  | .isbAby a => Sys2Proof.Machine.execIsbAby a s
  | .nopAbxFC a => Sys2Proof.Machine.execNopAbxFC a s
  | .sbcAbx a => Sys2Proof.Machine.execSbcAbx a s
  | .incAbx a => Sys2Proof.Machine.execIncAbx a s
  | .isbAbx a => Sys2Proof.Machine.execIsbAbx a s

end Sys2Proof.Machine
end

