-- ==== Sys2Proof/Machine/Microprograms.lean ====
section
/-!
DEFINITION. The microprogram of every opcode, and the tick function (40_execution.md R100, R107): the core alone, which takes any
inputs, and the core on its platform.
-/
namespace Sys2Proof.Machine

/-- The microprogram of an instruction (R109); its operand plays no part. -/
def microprogram (i : Instr) : List Action :=
  match i with
  | .brk => ticksBrk
  | .oraIdx _ => ticksOraIdx
  | .jam02 => ticksJam02
  | .sloIdx _ => ticksSloIdx
  | .nopZp04 _ => ticksNopZp04
  | .oraZp _ => ticksOraZp
  | .aslZp _ => ticksAslZp
  | .sloZp _ => ticksSloZp
  | .php => ticksPhp
  | .oraImm _ => ticksOraImm
  | .aslA => ticksAslA
  | .ancImm0B _ => ticksAncImm0B
  | .nopAbs0C _ => ticksNopAbs0C
  | .oraAbs _ => ticksOraAbs
  | .aslAbs _ => ticksAslAbs
  | .sloAbs _ => ticksSloAbs
  | .bpl _ => ticksBpl
  | .oraIdy _ => ticksOraIdy
  | .jam12 => ticksJam12
  | .sloIdy _ => ticksSloIdy
  | .nopZpx14 _ => ticksNopZpx14
  | .oraZpx _ => ticksOraZpx
  | .aslZpx _ => ticksAslZpx
  | .sloZpx _ => ticksSloZpx
  | .clc => ticksClc
  | .oraAby _ => ticksOraAby
  | .nop1A => ticksNop1A
  | .sloAby _ => ticksSloAby
  | .nopAbx1C _ => ticksNopAbx1C
  | .oraAbx _ => ticksOraAbx
  | .aslAbx _ => ticksAslAbx
  | .sloAbx _ => ticksSloAbx
  | .jsr _ => ticksJsr
  | .andIdx _ => ticksAndIdx
  | .jam22 => ticksJam22
  | .rlaIdx _ => ticksRlaIdx
  | .bitZp _ => ticksBitZp
  | .andZp _ => ticksAndZp
  | .rolZp _ => ticksRolZp
  | .rlaZp _ => ticksRlaZp
  | .plp => ticksPlp
  | .andImm _ => ticksAndImm
  | .rolA => ticksRolA
  | .ancImm2B _ => ticksAncImm2B
  | .bitAbs _ => ticksBitAbs
  | .andAbs _ => ticksAndAbs
  | .rolAbs _ => ticksRolAbs
  | .rlaAbs _ => ticksRlaAbs
  | .bmi _ => ticksBmi
  | .andIdy _ => ticksAndIdy
  | .jam32 => ticksJam32
  | .rlaIdy _ => ticksRlaIdy
  | .nopZpx34 _ => ticksNopZpx34
  | .andZpx _ => ticksAndZpx
  | .rolZpx _ => ticksRolZpx
  | .rlaZpx _ => ticksRlaZpx
  | .sec => ticksSec
  | .andAby _ => ticksAndAby
  | .nop3A => ticksNop3A
  | .rlaAby _ => ticksRlaAby
  | .nopAbx3C _ => ticksNopAbx3C
  | .andAbx _ => ticksAndAbx
  | .rolAbx _ => ticksRolAbx
  | .rlaAbx _ => ticksRlaAbx
  | .rti => ticksRti
  | .eorIdx _ => ticksEorIdx
  | .jam42 => ticksJam42
  | .sreIdx _ => ticksSreIdx
  | .nopZp44 _ => ticksNopZp44
  | .eorZp _ => ticksEorZp
  | .lsrZp _ => ticksLsrZp
  | .sreZp _ => ticksSreZp
  | .pha => ticksPha
  | .eorImm _ => ticksEorImm
  | .lsrA => ticksLsrA
  | .asrImm _ => ticksAsrImm
  | .jmpAbs _ => ticksJmpAbs
  | .eorAbs _ => ticksEorAbs
  | .lsrAbs _ => ticksLsrAbs
  | .sreAbs _ => ticksSreAbs
  | .bvc _ => ticksBvc
  | .eorIdy _ => ticksEorIdy
  | .jam52 => ticksJam52
  | .sreIdy _ => ticksSreIdy
  | .nopZpx54 _ => ticksNopZpx54
  | .eorZpx _ => ticksEorZpx
  | .lsrZpx _ => ticksLsrZpx
  | .sreZpx _ => ticksSreZpx
  | .cli => ticksCli
  | .eorAby _ => ticksEorAby
  | .nop5A => ticksNop5A
  | .sreAby _ => ticksSreAby
  | .nopAbx5C _ => ticksNopAbx5C
  | .eorAbx _ => ticksEorAbx
  | .lsrAbx _ => ticksLsrAbx
  | .sreAbx _ => ticksSreAbx
  | .rts => ticksRts
  | .adcIdx _ => ticksAdcIdx
  | .jam62 => ticksJam62
  | .rraIdx _ => ticksRraIdx
  | .nopZp64 _ => ticksNopZp64
  | .adcZp _ => ticksAdcZp
  | .rorZp _ => ticksRorZp
  | .rraZp _ => ticksRraZp
  | .pla => ticksPla
  | .adcImm _ => ticksAdcImm
  | .rorA => ticksRorA
  | .arrImm _ => ticksArrImm
  | .jmpInd _ => ticksJmpInd
  | .adcAbs _ => ticksAdcAbs
  | .rorAbs _ => ticksRorAbs
  | .rraAbs _ => ticksRraAbs
  | .bvs _ => ticksBvs
  | .adcIdy _ => ticksAdcIdy
  | .jam72 => ticksJam72
  | .rraIdy _ => ticksRraIdy
  | .nopZpx74 _ => ticksNopZpx74
  | .adcZpx _ => ticksAdcZpx
  | .rorZpx _ => ticksRorZpx
  | .rraZpx _ => ticksRraZpx
  | .sei => ticksSei
  | .adcAby _ => ticksAdcAby
  | .nop7A => ticksNop7A
  | .rraAby _ => ticksRraAby
  | .nopAbx7C _ => ticksNopAbx7C
  | .adcAbx _ => ticksAdcAbx
  | .rorAbx _ => ticksRorAbx
  | .rraAbx _ => ticksRraAbx
  | .nopImm80 _ => ticksNopImm80
  | .staIdx _ => ticksStaIdx
  | .nopImm82 _ => ticksNopImm82
  | .saxIdx _ => ticksSaxIdx
  | .styZp _ => ticksStyZp
  | .staZp _ => ticksStaZp
  | .stxZp _ => ticksStxZp
  | .saxZp _ => ticksSaxZp
  | .dey => ticksDey
  | .nopImm89 _ => ticksNopImm89
  | .txa => ticksTxa
  | .aneImm _ => ticksAneImm
  | .styAbs _ => ticksStyAbs
  | .staAbs _ => ticksStaAbs
  | .stxAbs _ => ticksStxAbs
  | .saxAbs _ => ticksSaxAbs
  | .bcc _ => ticksBcc
  | .staIdy _ => ticksStaIdy
  | .jam92 => ticksJam92
  | .shaIdy _ => ticksShaIdy
  | .styZpx _ => ticksStyZpx
  | .staZpx _ => ticksStaZpx
  | .stxZpy _ => ticksStxZpy
  | .saxZpy _ => ticksSaxZpy
  | .tya => ticksTya
  | .staAby _ => ticksStaAby
  | .txs => ticksTxs
  | .shsAby _ => ticksShsAby
  | .shyAbx _ => ticksShyAbx
  | .staAbx _ => ticksStaAbx
  | .shxAby _ => ticksShxAby
  | .shaAby _ => ticksShaAby
  | .ldyImm _ => ticksLdyImm
  | .ldaIdx _ => ticksLdaIdx
  | .ldxImm _ => ticksLdxImm
  | .laxIdx _ => ticksLaxIdx
  | .ldyZp _ => ticksLdyZp
  | .ldaZp _ => ticksLdaZp
  | .ldxZp _ => ticksLdxZp
  | .laxZp _ => ticksLaxZp
  | .tay => ticksTay
  | .ldaImm _ => ticksLdaImm
  | .tax => ticksTax
  | .lxaImm _ => ticksLxaImm
  | .ldyAbs _ => ticksLdyAbs
  | .ldaAbs _ => ticksLdaAbs
  | .ldxAbs _ => ticksLdxAbs
  | .laxAbs _ => ticksLaxAbs
  | .bcs _ => ticksBcs
  | .ldaIdy _ => ticksLdaIdy
  | .jamB2 => ticksJamB2
  | .laxIdy _ => ticksLaxIdy
  | .ldyZpx _ => ticksLdyZpx
  | .ldaZpx _ => ticksLdaZpx
  | .ldxZpy _ => ticksLdxZpy
  | .laxZpy _ => ticksLaxZpy
  | .clv => ticksClv
  | .ldaAby _ => ticksLdaAby
  | .tsx => ticksTsx
  | .lasAby _ => ticksLasAby
  | .ldyAbx _ => ticksLdyAbx
  | .ldaAbx _ => ticksLdaAbx
  | .ldxAby _ => ticksLdxAby
  | .laxAby _ => ticksLaxAby
  | .cpyImm _ => ticksCpyImm
  | .cmpIdx _ => ticksCmpIdx
  | .nopImmC2 _ => ticksNopImmC2
  | .dcpIdx _ => ticksDcpIdx
  | .cpyZp _ => ticksCpyZp
  | .cmpZp _ => ticksCmpZp
  | .decZp _ => ticksDecZp
  | .dcpZp _ => ticksDcpZp
  | .iny => ticksIny
  | .cmpImm _ => ticksCmpImm
  | .dex => ticksDex
  | .sbxImm _ => ticksSbxImm
  | .cpyAbs _ => ticksCpyAbs
  | .cmpAbs _ => ticksCmpAbs
  | .decAbs _ => ticksDecAbs
  | .dcpAbs _ => ticksDcpAbs
  | .bne _ => ticksBne
  | .cmpIdy _ => ticksCmpIdy
  | .jamD2 => ticksJamD2
  | .dcpIdy _ => ticksDcpIdy
  | .nopZpxD4 _ => ticksNopZpxD4
  | .cmpZpx _ => ticksCmpZpx
  | .decZpx _ => ticksDecZpx
  | .dcpZpx _ => ticksDcpZpx
  | .cld => ticksCld
  | .cmpAby _ => ticksCmpAby
  | .nopDA => ticksNopDA
  | .dcpAby _ => ticksDcpAby
  | .nopAbxDC _ => ticksNopAbxDC
  | .cmpAbx _ => ticksCmpAbx
  | .decAbx _ => ticksDecAbx
  | .dcpAbx _ => ticksDcpAbx
  | .cpxImm _ => ticksCpxImm
  | .sbcIdx _ => ticksSbcIdx
  | .nopImmE2 _ => ticksNopImmE2
  | .isbIdx _ => ticksIsbIdx
  | .cpxZp _ => ticksCpxZp
  | .sbcZp _ => ticksSbcZp
  | .incZp _ => ticksIncZp
  | .isbZp _ => ticksIsbZp
  | .inx => ticksInx
  | .sbcImm _ => ticksSbcImm
  | .nopEA => ticksNopEA
  | .sbcImmEB _ => ticksSbcImmEB
  | .cpxAbs _ => ticksCpxAbs
  | .sbcAbs _ => ticksSbcAbs
  | .incAbs _ => ticksIncAbs
  | .isbAbs _ => ticksIsbAbs
  | .beq _ => ticksBeq
  | .sbcIdy _ => ticksSbcIdy
  | .jamF2 => ticksJamF2
  | .isbIdy _ => ticksIsbIdy
  | .nopZpxF4 _ => ticksNopZpxF4
  | .sbcZpx _ => ticksSbcZpx
  | .incZpx _ => ticksIncZpx
  | .isbZpx _ => ticksIsbZpx
  | .sed => ticksSed
  | .sbcAby _ => ticksSbcAby
  | .nopFA => ticksNopFA
  | .isbAby _ => ticksIsbAby
  | .nopAbxFC _ => ticksNopAbxFC
  | .sbcAbx _ => ticksSbcAbx
  | .incAbx _ => ticksIncAbx
  | .isbAbx _ => ticksIsbAbx

/-- The microprogram of an opcode. -/
def microprogramOf (op : Byte) : List Action := microprogram (decodeInstr op 0 0)

/-- The part of a tick after sampling: the boundary, if an opcode fetch was set up, then the micro-operation IR names (R106, R107). -/
def microTick : Action := fun c s =>
  let s := if s.sync then s.boundary c.dbus else s
  microStep (microprogramOf s.irOpcode) c s

/-- `tick(s, in)` (R100): one clock cycle of the core, for any byte on the bus and any levels of the lines. It leaves the platform's
memory and schedule as they are. -/
def coreTick (inp : Input) (s : State) : State :=
  if s.stalls inp.lines then
    if s.inJam then s.jamStallTick inp else s.stallTick inp
  else s.liveTick microTick inp

/-- One clock cycle of the core on its platform (R51, R52, R125). -/
def tick (s : State) : State := (coreTick (s.busInput none) s).platform

/-- `n` clock cycles. -/
def ticks : Nat → State → State
  | 0, s => s
  | n + 1, s => ticks n (tick s)

end Sys2Proof.Machine
end

