-- ==== Sys2Proof/Machine/Step.lean ====
section
/-!
DEFINITION. The step, and how a program's word is put where it fetches.

A step from an instruction boundary runs one instruction, or one BRK/IRQ/NMI/RESET sequence where the boundary recognises an
interrupt or a reset (40_execution.md R106); a step from any other state, such as the JAM state, is one tick (log entry 5).
-/
namespace Sys2Proof.Machine

/-- The instruction whose bytes stand at the fetch (R65, R106): its opcode is what the data bus gives, its operand bytes are those
after it. -/
def fetched (s : State) : Instr :=
  decodeInstr (s.dbus (s.readByte s.addr)) (s.readByte (s.pc + 1)) (s.readByte (s.pc + 2))

/-- One step of the machine. -/
def step (s : State) : Host.Outcome State Fault Refusal :=
  if s.sync then
    if recognises s then .next (takeInterrupt s) else exec (fetched s) s
  else .next (tick s)

/-- The state with an instruction's three bytes stored at PC and its fetch set up, nothing pending and no line scheduled, so that the
next step runs that instruction (log entry 6). -/
def State.withFetchWord (s : State) (nbits w : Nat) : State :=
  match tableBytes nbits w with
  | (b0, b1, b2) =>
    { s with
      mem := ((s.mem.write s.pc.toNat b0).write (s.pc + 1).toNat b1).write (s.pc + 2).toNat b2
      addr := s.pc
      rw := false
      sync := true
      brk := BrkFlags.empty
      intr := { s.intr with irqPip := 0, nmiPip := 0, resLatch := false }
      lines := [] }

end Sys2Proof.Machine
end

