-- ==== Sys2Proof/Machine/Table.lean ====
section
/-!
DEFINITION. The addressing mode and the access kind of every instruction (30_encoding.md R74, R75, R77, R85), and the number of ticks
it takes (70_reset_and_hazards.md R349, R350). The microprograms do not use these: they are what claims about the microprograms
are stated with.
-/
namespace Sys2Proof.Machine

/-- The addressing mode of an instruction (R75, R85). A branch has mode imm (R77). -/
def modeOf (i : Instr) : Mode :=
  match i with
  | .brk => .none
  | .oraIdx _ => .idx
  | .jam02 => .inv
  | .sloIdx _ => .idx
  | .nopZp04 _ => .zp
  | .oraZp _ => .zp
  | .aslZp _ => .zp
  | .sloZp _ => .zp
  | .php => .none
  | .oraImm _ => .imm
  | .aslA => .none
  | .ancImm0B _ => .imm
  | .nopAbs0C _ => .abs
  | .oraAbs _ => .abs
  | .aslAbs _ => .abs
  | .sloAbs _ => .abs
  | .bpl _ => .imm
  | .oraIdy _ => .idy
  | .jam12 => .inv
  | .sloIdy _ => .idy
  | .nopZpx14 _ => .zpx
  | .oraZpx _ => .zpx
  | .aslZpx _ => .zpx
  | .sloZpx _ => .zpx
  | .clc => .none
  | .oraAby _ => .aby
  | .nop1A => .none
  | .sloAby _ => .aby
  | .nopAbx1C _ => .abx
  | .oraAbx _ => .abx
  | .aslAbx _ => .abx
  | .sloAbx _ => .abx
  | .jsr _ => .jsr
  | .andIdx _ => .idx
  | .jam22 => .inv
  | .rlaIdx _ => .idx
  | .bitZp _ => .zp
  | .andZp _ => .zp
  | .rolZp _ => .zp
  | .rlaZp _ => .zp
  | .plp => .none
  | .andImm _ => .imm
  | .rolA => .none
  | .ancImm2B _ => .imm
  | .bitAbs _ => .abs
  | .andAbs _ => .abs
  | .rolAbs _ => .abs
  | .rlaAbs _ => .abs
  | .bmi _ => .imm
  | .andIdy _ => .idy
  | .jam32 => .inv
  | .rlaIdy _ => .idy
  | .nopZpx34 _ => .zpx
  | .andZpx _ => .zpx
  | .rolZpx _ => .zpx
  | .rlaZpx _ => .zpx
  | .sec => .none
  | .andAby _ => .aby
  | .nop3A => .none
  | .rlaAby _ => .aby
  | .nopAbx3C _ => .abx
  | .andAbx _ => .abx
  | .rolAbx _ => .abx
  | .rlaAbx _ => .abx
  | .rti => .none
  | .eorIdx _ => .idx
  | .jam42 => .inv
  | .sreIdx _ => .idx
  | .nopZp44 _ => .zp
  | .eorZp _ => .zp
  | .lsrZp _ => .zp
  | .sreZp _ => .zp
  | .pha => .none
  | .eorImm _ => .imm
  | .lsrA => .none
  | .asrImm _ => .imm
  | .jmpAbs _ => .jmp
  | .eorAbs _ => .abs
  | .lsrAbs _ => .abs
  | .sreAbs _ => .abs
  | .bvc _ => .imm
  | .eorIdy _ => .idy
  | .jam52 => .inv
  | .sreIdy _ => .idy
  | .nopZpx54 _ => .zpx
  | .eorZpx _ => .zpx
  | .lsrZpx _ => .zpx
  | .sreZpx _ => .zpx
  | .cli => .none
  | .eorAby _ => .aby
  | .nop5A => .none
  | .sreAby _ => .aby
  | .nopAbx5C _ => .abx
  | .eorAbx _ => .abx
  | .lsrAbx _ => .abx
  | .sreAbx _ => .abx
  | .rts => .none
  | .adcIdx _ => .idx
  | .jam62 => .inv
  | .rraIdx _ => .idx
  | .nopZp64 _ => .zp
  | .adcZp _ => .zp
  | .rorZp _ => .zp
  | .rraZp _ => .zp
  | .pla => .none
  | .adcImm _ => .imm
  | .rorA => .none
  | .arrImm _ => .imm
  | .jmpInd _ => .jmp
  | .adcAbs _ => .abs
  | .rorAbs _ => .abs
  | .rraAbs _ => .abs
  | .bvs _ => .imm
  | .adcIdy _ => .idy
  | .jam72 => .inv
  | .rraIdy _ => .idy
  | .nopZpx74 _ => .zpx
  | .adcZpx _ => .zpx
  | .rorZpx _ => .zpx
  | .rraZpx _ => .zpx
  | .sei => .none
  | .adcAby _ => .aby
  | .nop7A => .none
  | .rraAby _ => .aby
  | .nopAbx7C _ => .abx
  | .adcAbx _ => .abx
  | .rorAbx _ => .abx
  | .rraAbx _ => .abx
  | .nopImm80 _ => .imm
  | .staIdx _ => .idx
  | .nopImm82 _ => .imm
  | .saxIdx _ => .idx
  | .styZp _ => .zp
  | .staZp _ => .zp
  | .stxZp _ => .zp
  | .saxZp _ => .zp
  | .dey => .none
  | .nopImm89 _ => .imm
  | .txa => .none
  | .aneImm _ => .imm
  | .styAbs _ => .abs
  | .staAbs _ => .abs
  | .stxAbs _ => .abs
  | .saxAbs _ => .abs
  | .bcc _ => .imm
  | .staIdy _ => .idy
  | .jam92 => .inv
  | .shaIdy _ => .idy
  | .styZpx _ => .zpx
  | .staZpx _ => .zpx
  | .stxZpy _ => .zpy
  | .saxZpy _ => .zpy
  | .tya => .none
  | .staAby _ => .aby
  | .txs => .none
  | .shsAby _ => .aby
  | .shyAbx _ => .abx
  | .staAbx _ => .abx
  | .shxAby _ => .aby
  | .shaAby _ => .aby
  | .ldyImm _ => .imm
  | .ldaIdx _ => .idx
  | .ldxImm _ => .imm
  | .laxIdx _ => .idx
  | .ldyZp _ => .zp
  | .ldaZp _ => .zp
  | .ldxZp _ => .zp
  | .laxZp _ => .zp
  | .tay => .none
  | .ldaImm _ => .imm
  | .tax => .none
  | .lxaImm _ => .imm
  | .ldyAbs _ => .abs
  | .ldaAbs _ => .abs
  | .ldxAbs _ => .abs
  | .laxAbs _ => .abs
  | .bcs _ => .imm
  | .ldaIdy _ => .idy
  | .jamB2 => .inv
  | .laxIdy _ => .idy
  | .ldyZpx _ => .zpx
  | .ldaZpx _ => .zpx
  | .ldxZpy _ => .zpy
  | .laxZpy _ => .zpy
  | .clv => .none
  | .ldaAby _ => .aby
  | .tsx => .none
  | .lasAby _ => .aby
  | .ldyAbx _ => .abx
  | .ldaAbx _ => .abx
  | .ldxAby _ => .aby
  | .laxAby _ => .aby
  | .cpyImm _ => .imm
  | .cmpIdx _ => .idx
  | .nopImmC2 _ => .imm
  | .dcpIdx _ => .idx
  | .cpyZp _ => .zp
  | .cmpZp _ => .zp
  | .decZp _ => .zp
  | .dcpZp _ => .zp
  | .iny => .none
  | .cmpImm _ => .imm
  | .dex => .none
  | .sbxImm _ => .imm
  | .cpyAbs _ => .abs
  | .cmpAbs _ => .abs
  | .decAbs _ => .abs
  | .dcpAbs _ => .abs
  | .bne _ => .imm
  | .cmpIdy _ => .idy
  | .jamD2 => .inv
  | .dcpIdy _ => .idy
  | .nopZpxD4 _ => .zpx
  | .cmpZpx _ => .zpx
  | .decZpx _ => .zpx
  | .dcpZpx _ => .zpx
  | .cld => .none
  | .cmpAby _ => .aby
  | .nopDA => .none
  | .dcpAby _ => .aby
  | .nopAbxDC _ => .abx
  | .cmpAbx _ => .abx
  | .decAbx _ => .abx
  | .dcpAbx _ => .abx
  | .cpxImm _ => .imm
  | .sbcIdx _ => .idx
  | .nopImmE2 _ => .imm
  | .isbIdx _ => .idx
  | .cpxZp _ => .zp
  | .sbcZp _ => .zp
  | .incZp _ => .zp
  | .isbZp _ => .zp
  | .inx => .none
  | .sbcImm _ => .imm
  | .nopEA => .none
  | .sbcImmEB _ => .imm
  | .cpxAbs _ => .abs
  | .sbcAbs _ => .abs
  | .incAbs _ => .abs
  | .isbAbs _ => .abs
  | .beq _ => .imm
  | .sbcIdy _ => .idy
  | .jamF2 => .inv
  | .isbIdy _ => .idy
  | .nopZpxF4 _ => .zpx
  | .sbcZpx _ => .zpx
  | .incZpx _ => .zpx
  | .isbZpx _ => .zpx
  | .sed => .none
  | .sbcAby _ => .aby
  | .nopFA => .none
  | .isbAby _ => .aby
  | .nopAbxFC _ => .abx
  | .sbcAbx _ => .abx
  | .incAbx _ => .abx
  | .isbAbx _ => .abx

/-- The access kind of an instruction (R74, R85). -/
def accessOf (i : Instr) : Access :=
  match i with
  | .brk => .none
  | .oraIdx _ => .read
  | .jam02 => .none
  | .sloIdx _ => .readWrite
  | .nopZp04 _ => .read
  | .oraZp _ => .read
  | .aslZp _ => .readWrite
  | .sloZp _ => .readWrite
  | .php => .write
  | .oraImm _ => .read
  | .aslA => .none
  | .ancImm0B _ => .read
  | .nopAbs0C _ => .read
  | .oraAbs _ => .read
  | .aslAbs _ => .readWrite
  | .sloAbs _ => .readWrite
  | .bpl _ => .read
  | .oraIdy _ => .read
  | .jam12 => .none
  | .sloIdy _ => .readWrite
  | .nopZpx14 _ => .read
  | .oraZpx _ => .read
  | .aslZpx _ => .readWrite
  | .sloZpx _ => .readWrite
  | .clc => .none
  | .oraAby _ => .read
  | .nop1A => .none
  | .sloAby _ => .readWrite
  | .nopAbx1C _ => .read
  | .oraAbx _ => .read
  | .aslAbx _ => .readWrite
  | .sloAbx _ => .readWrite
  | .jsr _ => .read
  | .andIdx _ => .read
  | .jam22 => .none
  | .rlaIdx _ => .readWrite
  | .bitZp _ => .read
  | .andZp _ => .read
  | .rolZp _ => .readWrite
  | .rlaZp _ => .readWrite
  | .plp => .none
  | .andImm _ => .read
  | .rolA => .none
  | .ancImm2B _ => .read
  | .bitAbs _ => .read
  | .andAbs _ => .read
  | .rolAbs _ => .readWrite
  | .rlaAbs _ => .readWrite
  | .bmi _ => .read
  | .andIdy _ => .read
  | .jam32 => .none
  | .rlaIdy _ => .readWrite
  | .nopZpx34 _ => .read
  | .andZpx _ => .read
  | .rolZpx _ => .readWrite
  | .rlaZpx _ => .readWrite
  | .sec => .none
  | .andAby _ => .read
  | .nop3A => .none
  | .rlaAby _ => .readWrite
  | .nopAbx3C _ => .read
  | .andAbx _ => .read
  | .rolAbx _ => .readWrite
  | .rlaAbx _ => .readWrite
  | .rti => .none
  | .eorIdx _ => .read
  | .jam42 => .none
  | .sreIdx _ => .readWrite
  | .nopZp44 _ => .read
  | .eorZp _ => .read
  | .lsrZp _ => .readWrite
  | .sreZp _ => .readWrite
  | .pha => .write
  | .eorImm _ => .read
  | .lsrA => .none
  | .asrImm _ => .read
  | .jmpAbs _ => .read
  | .eorAbs _ => .read
  | .lsrAbs _ => .readWrite
  | .sreAbs _ => .readWrite
  | .bvc _ => .read
  | .eorIdy _ => .read
  | .jam52 => .none
  | .sreIdy _ => .readWrite
  | .nopZpx54 _ => .read
  | .eorZpx _ => .read
  | .lsrZpx _ => .readWrite
  | .sreZpx _ => .readWrite
  | .cli => .none
  | .eorAby _ => .read
  | .nop5A => .none
  | .sreAby _ => .readWrite
  | .nopAbx5C _ => .read
  | .eorAbx _ => .read
  | .lsrAbx _ => .readWrite
  | .sreAbx _ => .readWrite
  | .rts => .none
  | .adcIdx _ => .read
  | .jam62 => .none
  | .rraIdx _ => .readWrite
  | .nopZp64 _ => .read
  | .adcZp _ => .read
  | .rorZp _ => .readWrite
  | .rraZp _ => .readWrite
  | .pla => .none
  | .adcImm _ => .read
  | .rorA => .none
  | .arrImm _ => .read
  | .jmpInd _ => .read
  | .adcAbs _ => .read
  | .rorAbs _ => .readWrite
  | .rraAbs _ => .readWrite
  | .bvs _ => .read
  | .adcIdy _ => .read
  | .jam72 => .none
  | .rraIdy _ => .readWrite
  | .nopZpx74 _ => .read
  | .adcZpx _ => .read
  | .rorZpx _ => .readWrite
  | .rraZpx _ => .readWrite
  | .sei => .none
  | .adcAby _ => .read
  | .nop7A => .none
  | .rraAby _ => .readWrite
  | .nopAbx7C _ => .read
  | .adcAbx _ => .read
  | .rorAbx _ => .readWrite
  | .rraAbx _ => .readWrite
  | .nopImm80 _ => .read
  | .staIdx _ => .write
  | .nopImm82 _ => .read
  | .saxIdx _ => .write
  | .styZp _ => .write
  | .staZp _ => .write
  | .stxZp _ => .write
  | .saxZp _ => .write
  | .dey => .none
  | .nopImm89 _ => .read
  | .txa => .none
  | .aneImm _ => .read
  | .styAbs _ => .write
  | .staAbs _ => .write
  | .stxAbs _ => .write
  | .saxAbs _ => .write
  | .bcc _ => .read
  | .staIdy _ => .write
  | .jam92 => .none
  | .shaIdy _ => .write
  | .styZpx _ => .write
  | .staZpx _ => .write
  | .stxZpy _ => .write
  | .saxZpy _ => .write
  | .tya => .none
  | .staAby _ => .write
  | .txs => .none
  | .shsAby _ => .write
  | .shyAbx _ => .write
  | .staAbx _ => .write
  | .shxAby _ => .write
  | .shaAby _ => .write
  | .ldyImm _ => .read
  | .ldaIdx _ => .read
  | .ldxImm _ => .read
  | .laxIdx _ => .read
  | .ldyZp _ => .read
  | .ldaZp _ => .read
  | .ldxZp _ => .read
  | .laxZp _ => .read
  | .tay => .none
  | .ldaImm _ => .read
  | .tax => .none
  | .lxaImm _ => .read
  | .ldyAbs _ => .read
  | .ldaAbs _ => .read
  | .ldxAbs _ => .read
  | .laxAbs _ => .read
  | .bcs _ => .read
  | .ldaIdy _ => .read
  | .jamB2 => .none
  | .laxIdy _ => .read
  | .ldyZpx _ => .read
  | .ldaZpx _ => .read
  | .ldxZpy _ => .read
  | .laxZpy _ => .read
  | .clv => .none
  | .ldaAby _ => .read
  | .tsx => .none
  | .lasAby _ => .read
  | .ldyAbx _ => .read
  | .ldaAbx _ => .read
  | .ldxAby _ => .read
  | .laxAby _ => .read
  | .cpyImm _ => .read
  | .cmpIdx _ => .read
  | .nopImmC2 _ => .read
  | .dcpIdx _ => .readWrite
  | .cpyZp _ => .read
  | .cmpZp _ => .read
  | .decZp _ => .readWrite
  | .dcpZp _ => .readWrite
  | .iny => .none
  | .cmpImm _ => .read
  | .dex => .none
  | .sbxImm _ => .read
  | .cpyAbs _ => .read
  | .cmpAbs _ => .read
  | .decAbs _ => .readWrite
  | .dcpAbs _ => .readWrite
  | .bne _ => .read
  | .cmpIdy _ => .read
  | .jamD2 => .none
  | .dcpIdy _ => .readWrite
  | .nopZpxD4 _ => .read
  | .cmpZpx _ => .read
  | .decZpx _ => .readWrite
  | .dcpZpx _ => .readWrite
  | .cld => .none
  | .cmpAby _ => .read
  | .nopDA => .none
  | .dcpAby _ => .readWrite
  | .nopAbxDC _ => .read
  | .cmpAbx _ => .read
  | .decAbx _ => .readWrite
  | .dcpAbx _ => .readWrite
  | .cpxImm _ => .read
  | .sbcIdx _ => .read
  | .nopImmE2 _ => .read
  | .isbIdx _ => .readWrite
  | .cpxZp _ => .read
  | .sbcZp _ => .read
  | .incZp _ => .readWrite
  | .isbZp _ => .readWrite
  | .inx => .none
  | .sbcImm _ => .read
  | .nopEA => .none
  | .sbcImmEB _ => .read
  | .cpxAbs _ => .read
  | .sbcAbs _ => .read
  | .incAbs _ => .readWrite
  | .isbAbs _ => .readWrite
  | .beq _ => .read
  | .sbcIdy _ => .read
  | .jamF2 => .none
  | .isbIdy _ => .readWrite
  | .nopZpxF4 _ => .read
  | .sbcZpx _ => .read
  | .incZpx _ => .readWrite
  | .isbZpx _ => .readWrite
  | .sed => .none
  | .sbcAby _ => .read
  | .nopFA => .none
  | .isbAby _ => .readWrite
  | .nopAbxFC _ => .read
  | .sbcAbx _ => .read
  | .incAbx _ => .readWrite
  | .isbAbx _ => .readWrite

/-- The instruction is a JAM (R73). -/
def isJam (i : Instr) : Bool := decide (modeOf i = .inv)

/-- The condition of a branch (30_encoding.md R79), and `none` for every other instruction. -/
def branchCond? (i : Instr) (s : State) : Option Bool :=
  match i with
  | .bpl _ => some (!s.flag .n)
  | .bmi _ => some (s.flag .n)
  | .bvc _ => some (!s.flag .v)
  | .bvs _ => some (s.flag .v)
  | .bcc _ => some (!s.flag .c)
  | .bcs _ => some (s.flag .c)
  | .bne _ => some (!s.flag .z)
  | .beq _ => some (s.flag .z)
  | .brk => none
  | .oraIdx _ => none
  | .jam02 => none
  | .sloIdx _ => none
  | .nopZp04 _ => none
  | .oraZp _ => none
  | .aslZp _ => none
  | .sloZp _ => none
  | .php => none
  | .oraImm _ => none
  | .aslA => none
  | .ancImm0B _ => none
  | .nopAbs0C _ => none
  | .oraAbs _ => none
  | .aslAbs _ => none
  | .sloAbs _ => none
  | .oraIdy _ => none
  | .jam12 => none
  | .sloIdy _ => none
  | .nopZpx14 _ => none
  | .oraZpx _ => none
  | .aslZpx _ => none
  | .sloZpx _ => none
  | .clc => none
  | .oraAby _ => none
  | .nop1A => none
  | .sloAby _ => none
  | .nopAbx1C _ => none
  | .oraAbx _ => none
  | .aslAbx _ => none
  | .sloAbx _ => none
  | .jsr _ => none
  | .andIdx _ => none
  | .jam22 => none
  | .rlaIdx _ => none
  | .bitZp _ => none
  | .andZp _ => none
  | .rolZp _ => none
  | .rlaZp _ => none
  | .plp => none
  | .andImm _ => none
  | .rolA => none
  | .ancImm2B _ => none
  | .bitAbs _ => none
  | .andAbs _ => none
  | .rolAbs _ => none
  | .rlaAbs _ => none
  | .andIdy _ => none
  | .jam32 => none
  | .rlaIdy _ => none
  | .nopZpx34 _ => none
  | .andZpx _ => none
  | .rolZpx _ => none
  | .rlaZpx _ => none
  | .sec => none
  | .andAby _ => none
  | .nop3A => none
  | .rlaAby _ => none
  | .nopAbx3C _ => none
  | .andAbx _ => none
  | .rolAbx _ => none
  | .rlaAbx _ => none
  | .rti => none
  | .eorIdx _ => none
  | .jam42 => none
  | .sreIdx _ => none
  | .nopZp44 _ => none
  | .eorZp _ => none
  | .lsrZp _ => none
  | .sreZp _ => none
  | .pha => none
  | .eorImm _ => none
  | .lsrA => none
  | .asrImm _ => none
  | .jmpAbs _ => none
  | .eorAbs _ => none
  | .lsrAbs _ => none
  | .sreAbs _ => none
  | .eorIdy _ => none
  | .jam52 => none
  | .sreIdy _ => none
  | .nopZpx54 _ => none
  | .eorZpx _ => none
  | .lsrZpx _ => none
  | .sreZpx _ => none
  | .cli => none
  | .eorAby _ => none
  | .nop5A => none
  | .sreAby _ => none
  | .nopAbx5C _ => none
  | .eorAbx _ => none
  | .lsrAbx _ => none
  | .sreAbx _ => none
  | .rts => none
  | .adcIdx _ => none
  | .jam62 => none
  | .rraIdx _ => none
  | .nopZp64 _ => none
  | .adcZp _ => none
  | .rorZp _ => none
  | .rraZp _ => none
  | .pla => none
  | .adcImm _ => none
  | .rorA => none
  | .arrImm _ => none
  | .jmpInd _ => none
  | .adcAbs _ => none
  | .rorAbs _ => none
  | .rraAbs _ => none
  | .adcIdy _ => none
  | .jam72 => none
  | .rraIdy _ => none
  | .nopZpx74 _ => none
  | .adcZpx _ => none
  | .rorZpx _ => none
  | .rraZpx _ => none
  | .sei => none
  | .adcAby _ => none
  | .nop7A => none
  | .rraAby _ => none
  | .nopAbx7C _ => none
  | .adcAbx _ => none
  | .rorAbx _ => none
  | .rraAbx _ => none
  | .nopImm80 _ => none
  | .staIdx _ => none
  | .nopImm82 _ => none
  | .saxIdx _ => none
  | .styZp _ => none
  | .staZp _ => none
  | .stxZp _ => none
  | .saxZp _ => none
  | .dey => none
  | .nopImm89 _ => none
  | .txa => none
  | .aneImm _ => none
  | .styAbs _ => none
  | .staAbs _ => none
  | .stxAbs _ => none
  | .saxAbs _ => none
  | .staIdy _ => none
  | .jam92 => none
  | .shaIdy _ => none
  | .styZpx _ => none
  | .staZpx _ => none
  | .stxZpy _ => none
  | .saxZpy _ => none
  | .tya => none
  | .staAby _ => none
  | .txs => none
  | .shsAby _ => none
  | .shyAbx _ => none
  | .staAbx _ => none
  | .shxAby _ => none
  | .shaAby _ => none
  | .ldyImm _ => none
  | .ldaIdx _ => none
  | .ldxImm _ => none
  | .laxIdx _ => none
  | .ldyZp _ => none
  | .ldaZp _ => none
  | .ldxZp _ => none
  | .laxZp _ => none
  | .tay => none
  | .ldaImm _ => none
  | .tax => none
  | .lxaImm _ => none
  | .ldyAbs _ => none
  | .ldaAbs _ => none
  | .ldxAbs _ => none
  | .laxAbs _ => none
  | .ldaIdy _ => none
  | .jamB2 => none
  | .laxIdy _ => none
  | .ldyZpx _ => none
  | .ldaZpx _ => none
  | .ldxZpy _ => none
  | .laxZpy _ => none
  | .clv => none
  | .ldaAby _ => none
  | .tsx => none
  | .lasAby _ => none
  | .ldyAbx _ => none
  | .ldaAbx _ => none
  | .ldxAby _ => none
  | .laxAby _ => none
  | .cpyImm _ => none
  | .cmpIdx _ => none
  | .nopImmC2 _ => none
  | .dcpIdx _ => none
  | .cpyZp _ => none
  | .cmpZp _ => none
  | .decZp _ => none
  | .dcpZp _ => none
  | .iny => none
  | .cmpImm _ => none
  | .dex => none
  | .sbxImm _ => none
  | .cpyAbs _ => none
  | .cmpAbs _ => none
  | .decAbs _ => none
  | .dcpAbs _ => none
  | .cmpIdy _ => none
  | .jamD2 => none
  | .dcpIdy _ => none
  | .nopZpxD4 _ => none
  | .cmpZpx _ => none
  | .decZpx _ => none
  | .dcpZpx _ => none
  | .cld => none
  | .cmpAby _ => none
  | .nopDA => none
  | .dcpAby _ => none
  | .nopAbxDC _ => none
  | .cmpAbx _ => none
  | .decAbx _ => none
  | .dcpAbx _ => none
  | .cpxImm _ => none
  | .sbcIdx _ => none
  | .nopImmE2 _ => none
  | .isbIdx _ => none
  | .cpxZp _ => none
  | .sbcZp _ => none
  | .incZp _ => none
  | .isbZp _ => none
  | .inx => none
  | .sbcImm _ => none
  | .nopEA => none
  | .sbcImmEB _ => none
  | .cpxAbs _ => none
  | .sbcAbs _ => none
  | .incAbs _ => none
  | .isbAbs _ => none
  | .sbcIdy _ => none
  | .jamF2 => none
  | .isbIdy _ => none
  | .nopZpxF4 _ => none
  | .sbcZpx _ => none
  | .incZpx _ => none
  | .isbZpx _ => none
  | .sed => none
  | .sbcAby _ => none
  | .nopFA => none
  | .isbAby _ => none
  | .nopAbxFC _ => none
  | .sbcAbx _ => none
  | .incAbx _ => none
  | .isbAbx _ => none

/-- Where a branch goes (30_encoding.md R71): the address of the next instruction plus the offset. -/
def branchTarget (offset : Int) (s : State) : Word := s.pc + 2 + sext16 (offsetByte offset)

/-- Two addresses in one page. -/
def samePage (j k : Word) : Bool := hi j == hi k

/-- The instruction is a taken branch that stays in the page of the next instruction (44_control_stack.md R240). -/
def branchesInPage (i : Instr) (s : State) : Bool :=
  match branchCond? i s, branchOffset? i with
  | some taken, some o => taken && samePage (branchTarget o s) (s.pc + 2)
  | _, _ => false

/-- The operand word of an absolute form, from the operand bytes. -/
def operandWord (i : Instr) : Word :=
  match i.operandBytes with
  | [l, h] => mkWord h l
  | [l] => zext16 l
  | _ => 0

/-- The address an instruction's operand access comes to, by its addressing mode (30_encoding.md R71); for PHA and PHP, which write
with mode none (R74), the address they push to (10_state.md R23). -/
def effectiveAddress (i : Instr) (s : State) : Word :=
  match modeOf i with
  | .none => stackAddr s.sp
  | .zp => addrZp (lo (operandWord i)) s
  | .zpx => addrZpx (lo (operandWord i)) s
  | .zpy => addrZpy (lo (operandWord i)) s
  | .abs => addrAbs (operandWord i) s
  | .abx => addrAbx (operandWord i) s
  | .aby => addrAby (operandWord i) s
  | .idx => addrIdx (lo (operandWord i)) s
  | .idy => addrIdy (lo (operandWord i)) s
  | .imm | .jmp | .jsr | .inv => s.pc

/-- The indexing of the instruction's effective address crosses a page (R350). -/
def indexCrosses (i : Instr) (s : State) : Bool :=
  match modeOf i with
  | .abx => crossesPage (operandWord i) s.x
  | .aby => crossesPage (operandWord i) s.y
  | .idy => crossesPage (zeroPagePointer (lo (operandWord i)) s) s.y
  | .none | .imm | .zp | .zpx | .zpy | .abs | .idx | .jmp | .jsr | .inv => false

/-- The ticks of an instruction from its boundary to the tick that sets up the next opcode fetch (R349): the table by mode and access
kind, and the special sequences. A JAM never sets one up: 0 stands for it. -/
def cyclesOf (i : Instr) (s : State) : Nat :=
  match branchCond? i s, branchOffset? i with
  | some taken, some o =>
    if !taken then 2 else if samePage (branchTarget o s) (s.pc + 2) then 3 else 4
  | _, _ =>
    match i with
    | .brk => 7
    | .jsr _ => 6
    | .rts => 6
    | .rti => 6
    | .pha => 3
    | .php => 3
    | .pla => 4
    | .plp => 4
    | .jmpAbs _ => 3
    | .jmpInd _ => 5
    | i =>
      match modeOf i, accessOf i with
      | .none, _ => 2
      | .imm, _ => 2
      | .zp, .readWrite => 5
      | .zp, _ => 3
      | .zpx, .readWrite => 6
      | .zpx, _ => 4
      | .zpy, .readWrite => 6
      | .zpy, _ => 4
      | .abs, .readWrite => 6
      | .abs, _ => 4
      | .abx, .readWrite => 7
      | .abx, .write => 5
      | .abx, _ => if indexCrosses i s then 5 else 4
      | .aby, .readWrite => 7
      | .aby, .write => 5
      | .aby, _ => if indexCrosses i s then 5 else 4
      | .idx, .readWrite => 8
      | .idx, _ => 6
      | .idy, .readWrite => 8
      | .idy, .write => 6
      | .idy, _ => if indexCrosses i s then 6 else 5
      | .jmp, _ => 3
      | .jsr, _ => 6
      | .inv, _ => 0

end Sys2Proof.Machine
end

