-- ==== Sys2Proof/Safety.lean ====
section
/-!
DEFINITION. The terms claims are stated in: the programmer-visible state; the states at an instruction boundary and in the JAM state;
the invariant of a run; and what it is for an instruction to complete with a result.
-/
namespace Sys2Proof.Machine

/-! ### The programmer-visible state -/

/-- The six registers of 10_state.md R20, and memory: everything a program can observe. -/
structure Arch where
  /-- A. -/
  a : Byte
  /-- X. -/
  x : Byte
  /-- Y. -/
  y : Byte
  /-- S. -/
  sp : Byte
  /-- P. -/
  p : Byte
  /-- PC. -/
  pc : Word
  /-- Memory. -/
  mem : Memory
  deriving DecidableEq, Repr

/-- The programmer-visible part of a state. -/
def State.arch (s : State) : Arch :=
  { a := s.a, x := s.x, y := s.y, sp := s.sp, p := s.p, pc := s.pc, mem := s.mem }

/-- PC stepped past an instruction of `n` bytes. -/
def Arch.skip (r : Arch) (n : Word) : Arch := { r with pc := r.pc + n }

/-- A byte of memory. -/
def Arch.readByte (r : Arch) (k : Word) : Byte := r.mem.read k.toNat

/-- A byte stored. -/
def Arch.store (r : Arch) (k : Word) (v : Byte) : Arch := { r with mem := r.mem.write k.toNat v }

/-- A byte pushed: stored at `0x0100 | S`, then S decremented (10_state.md R23). -/
def Arch.push (r : Arch) (v : Byte) : Arch := { r.store (stackAddr r.sp) v with sp := r.sp - 1 }

/-- A flag of P. -/
def Arch.flag (r : Arch) (f : Flag) : Bool := getFlag r.p f

/-- A byte loaded into A, with NZ. -/
def Arch.loadA (v : Byte) (r : Arch) : Arch := { r with a := v, p := setNZ r.p v }

/-- A byte loaded into X, with NZ. -/
def Arch.loadX (v : Byte) (r : Arch) : Arch := { r with x := v, p := setNZ r.p v }

/-- A byte loaded into Y, with NZ. -/
def Arch.loadY (v : Byte) (r : Arch) : Arch := { r with y := v, p := setNZ r.p v }

/-- The result of an add, a subtract or ARR loaded into A, with N, V, Z, C. -/
def Arch.loadAlu (q : AluResult) (r : Arch) : Arch := { r with a := q.r, p := setNVZC r.p q }

/-- The word at an address and the next, low byte first (20_memory.md R53). -/
def Arch.word (r : Arch) (k : Word) : Word := mkWord (r.readByte (k + 1)) (r.readByte k)

/-- A return address pushed, high byte first. -/
def Arch.pushWord (r : Arch) (ret : Word) : Arch := (r.push (hi ret)).push (lo ret)

/-- A return address and P pushed (60_exceptions.md R308-R310). -/
def Arch.pushFrame (r : Arch) (ret : Word) : Arch := (r.pushWord ret).push (pushedStatus r.p)

/-- IRQ masked, P.B set (R311), PC at the vector's word (R312, R313). -/
def Arch.enterHandler (r : Arch) (vector : Word) : Arch :=
  { r with p := setFlag (setFlag r.p .i true) .b true, pc := r.word vector }

/-! ### Boundaries, the JAM state, the invariant -/

/-- An instruction boundary comes next: an opcode fetch is set up at PC, and no sequence is under way (40_execution.md R122,
10_state.md R35). -/
def State.AtBoundary (s : State) : Prop :=
  s.sync = true ∧ s.rw = false ∧ s.addr = s.pc ∧ s.brk = BrkFlags.empty

/-- What every tick in the JAM state leaves (60_exceptions.md R325): 0xFFFF and 0xFF on the pins, a read, no opcode fetch set up, and
the JAM state again, with no sequence under way. -/
def State.Jammed (s : State) : Prop :=
  s.inJam = true ∧ s.addr = 0xFFFF ∧ s.dout = 0xFF ∧ s.rw = false ∧ s.brk = BrkFlags.empty

/-- What holds between steps: memory is in its canonical form, P.B is 1 (10_state.md R30), no sample stands in bit 0 of irq_pip (every
tick shifts it on, R36), and a boundary comes next unless the core is jammed. -/
def State.Inv (s : State) : Prop :=
  s.mem.wf ∧ s.flag .b = true ∧ s.intr.irqPip.getLsbD 0 = false ∧ (s.AtBoundary ∨ s.Jammed)

/-- No scheduled line stalls the core. -/
def State.Unstalled (s : State) : Prop := ∀ l ∈ s.lines, l.rdy = false

/-- No scheduled line asserts RES. -/
def State.NoReset (s : State) : Prop := ∀ l ∈ s.lines, l.res = false

/-! ### Completing with a result -/

/-- The instruction runs from this state to the next boundary, and this is the programmer-visible state there. -/
def Completes (i : Instr) (s : State) (r : Arch) : Prop :=
  ∃ t, exec i s = .next t ∧ t.arch = r ∧ t.AtBoundary

/-- A form of an instruction that addresses memory, by its addressing mode. -/
inductive MemForm where
  | zp (make : Byte → Instr)
  | zpx (make : Byte → Instr)
  | zpy (make : Byte → Instr)
  | abs (make : Word → Instr)
  | abx (make : Word → Instr)
  | aby (make : Word → Instr)
  | idx (make : Byte → Instr)
  | idy (make : Byte → Instr)

/-- A property of the instruction, its effective address (30_encoding.md R71) and its length (R70), for every operand of the form. -/
def MemForm.Each (s : State) (prop : Instr → Word → Word → Prop) : MemForm → Prop
  | .zp make => ∀ z, prop (make z) (addrZp z s) 2
  | .zpx make => ∀ z, prop (make z) (addrZpx z s) 2
  | .zpy make => ∀ z, prop (make z) (addrZpy z s) 2
  | .abs make => ∀ k, prop (make k) (addrAbs k s) 3
  | .abx make => ∀ k, prop (make k) (addrAbx k s) 3
  | .aby make => ∀ k, prop (make k) (addrAby k s) 3
  | .idx make => ∀ z, prop (make z) (addrIdx z s) 2
  | .idy make => ∀ z, prop (make z) (addrIdy z s) 2

/-- Every immediate form completes with this effect of its operand. -/
def RunsImmediate (s : State) (effect : Byte → Arch → Arch) (make : Byte → Instr) : Prop :=
  ∀ n, Completes (make n) s (effect n (s.arch.skip 2))

/-- A reading form completes with this effect of the byte at its effective address. -/
def RunsRead (s : State) (effect : Byte → Arch → Arch) (form : MemForm) : Prop :=
  form.Each s fun i k len => Completes i s (effect (s.readByte k) (s.arch.skip len))

/-- A storing form completes with this byte stored at its effective address, and no other effect. -/
def RunsStore (s : State) (value : Byte) (form : MemForm) : Prop :=
  form.Each s fun i k len => Completes i s ((s.arch.skip len).store k value)

/-- A read-modify-write form completes with the new value stored at its effective address, and the other effects of computing it. -/
def RunsModify (s : State) (effect : Byte → Arch → Byte × Arch) (form : MemForm) : Prop :=
  form.Each s fun i k len =>
    Completes i s ((effect (s.readByte k) (s.arch.skip len)).2.store k (effect (s.readByte k) (s.arch.skip len)).1)

/-- An instruction without an operand completes with this effect. -/
def RunsImplied (s : State) (effect : Arch → Arch) (i : Instr) : Prop :=
  Completes i s (effect (s.arch.skip 1))

end Sys2Proof.Machine
end

