-- ==== Sys2Proof/Certificates/Slice0/Obligations.lean ====
section
/-!
DEFINITION. The statements for the provers. Each docstring names the rules of the spec it formalises; a statement that rests on a
choice of the model's own says so and names the log entry. An `Arch` is the programmer-visible state (A, X, Y, S, P, PC, memory), so
an instruction's result as an `Arch` is also its frame: the registers, flags and bytes it does not name are as they were.
-/
open Sys2Proof Sys2Proof.Machine

/-- R70-R72, R76, R77: no bit of an encoding is dropped. -/
def Obligations.DecodeOfEncode : Prop :=
  ∀ (i : Instr) (rest : List Byte), wellFormed i = true → decode (encode i ++ rest) = .ok i rest

/-- R70, R71, R76: one instruction has one encoding. -/
def Obligations.EncodeOfDecode : Prop :=
  ∀ (bytes : List Byte) (i : Instr) (rest : List Byte),
    decode bytes = .ok i rest → wellFormed i = true ∧ bytes = encode i ++ rest

/-- R73, R80: decoding is total. -/
def Obligations.EveryOpcodeDecodes : Prop :=
  ∀ op b1 b2 : Byte, ∃ i rest, decode [op, b1, b2] = .ok i rest ∧ i.opcode = op ∧
    (isJam i = true ↔ op ∈ ([0x02, 0x12, 0x22, 0x32, 0x42, 0x52, 0x62, 0x72, 0x92, 0xB2, 0xD2, 0xF2] : List Byte))

/-- R71, R77, R85: sanity. -/
def Obligations.SanityDecodedWords : Prop :=
  decode [0b10101101, 0x34, 0x12] = .ok (.ldaAbs 0x1234) [] ∧ decode [0b10010001, 0x80] = .ok (.staIdy 0x80) [] ∧
    decode [0b01101001, 0x50] = .ok (.adcImm 0x50) [] ∧ decode [0b11110110, 0x10] = .ok (.incZpx 0x10) [] ∧
    decode [0b00001010] = .ok .aslA [] ∧ decode [0b11010000, 0xFB] = .ok (.bne (-5)) [] ∧
    decode [0b01101100, 0xFF, 0x30] = .ok (.jmpInd 0x30FF) [] ∧ decode [0b00011011, 0x00, 0x20] = .ok (.sloAby 0x2000) [] ∧
    decode [0b10010010] = .ok .jam92 []

/-- R70: the lengths. -/
def Obligations.InstructionLengths : Prop :=
  ∀ i : Instr, (encode i).length = match modeOf i with
    | .none | .inv => 1
    | .imm | .zp | .zpx | .zpy | .idx | .idy => 2
    | .abs | .abx | .aby | .jmp | .jsr => 3

/-- R106, R65: a step is a whole instruction at a boundary (log entry 5), of the bytes at PC. -/
def Obligations.StepRunsTheDecodedInstruction : Prop :=
  ∀ (s : State) (i : Instr) (rest : List Byte), s.AtBoundary → recognises s = false →
    decode [s.readByte s.pc, s.readByte (s.pc + 1), s.readByte (s.pc + 2)] = .ok i rest → step s = exec i s

/-- R305, R324: the opcode just read is discarded. That one step is the whole sequence, and that exec leaves it to step to recognise it, is the
model's choice (log entries 5 and 13). -/
def Obligations.StepTakesRecognisedInterrupts : Prop :=
  ∀ s : State, s.AtBoundary → recognises s = true → step s = .next (takeInterrupt s)

/-- R127: a model's tick function has no fault outcome. -/
def Obligations.StepAlwaysAnswersNext : Prop :=
  (∀ s : State, ∃ t, step s = .next t) ∧ ∀ (i : Instr) (s : State), ∃ t, exec i s = .next t

/-- R100, R106, R107, R109: the step, whose extent is the model's choice (log entry 5), is no shortcut past the tick function. -/
def Obligations.StepIsWholeTicks : Prop :=
  ∀ s : State, ∃ n, 0 < n ∧ step s = .next (ticks n s)

/-- R350, and the table of R349. -/
def Obligations.CycleCounts : Prop :=
  ∀ s : State, s.AtBoundary → s.Unstalled → recognises s = false → isJam (fetched s) = false →
    step s = .next (ticks (cyclesOf (fetched s) s) s) ∧ (ticks (cyclesOf (fetched s) s) s).sync = true ∧
      ∀ k, 0 < k → k < cyclesOf (fetched s) s → (ticks k s).sync = false

/-- R30, R36, R122, R325. -/
def Obligations.StepKeepsInvariant : Prop :=
  ∀ s t : State, s.Inv → step s = .next t → t.Inv

/-- R40, R41; the reset values the spec gives none for are those of log entry 1. -/
def Obligations.InvariantAtReset : Prop :=
  State.reset.Inv

/-- R40 (and R315: no byte of memory changes). -/
def Obligations.ResetSequenceValues : Prop :=
  ∀ s : State, s.AtBoundary → (recognised s).res = true →
    (takeInterrupt s).pc = mkWord (s.readByte 0xFFFD) (s.readByte 0xFFFC) ∧ (takeInterrupt s).sp = s.sp - 3 ∧
      (takeInterrupt s).flag .i = true ∧ (takeInterrupt s).flag .b = true ∧ (takeInterrupt s).brk = BrkFlags.empty ∧
      (takeInterrupt s).addr = (takeInterrupt s).pc ∧ (takeInterrupt s).sync = true ∧ (takeInterrupt s).rw = false ∧
      (takeInterrupt s).a = s.a ∧ (takeInterrupt s).x = s.x ∧ (takeInterrupt s).y = s.y ∧ (takeInterrupt s).mem = s.mem ∧
      (∀ f, f ≠ .i → f ≠ .b → (takeInterrupt s).flag f = s.flag f) ∧
      (takeInterrupt s).ad = zext16 (s.readByte 0xFFFC)

/-- R42, R45, R341, R317; that R42 goes before R104 where RDY is asserted is the model's reading (log entry 19). -/
def Obligations.ConstructionRunsReset : Prop :=
  (∀ po mem lines, (recognised (State.construct po mem lines)).res = true) ∧
    (∀ po mem lines inp, let t := coreTick inp (State.construct po mem lines)
      t.ir = 1 ∧ t.brk = { irq := false, nmi := false, res := true } ∧ t.intr.resLatch = false ∧ t.sync = false ∧ t.rw = false ∧
        t.addr = po.pc ∧ t.pc = po.pc) ∧
    ∀ (po : PowerOn) (mem : Memory), let s := State.construct po mem []
      (ticks 1 s).addr = po.pc ∧ (ticks 2 s).addr = stackAddr po.sp ∧ (ticks 3 s).addr = stackAddr (po.sp - 1) ∧
        (ticks 4 s).addr = stackAddr (po.sp - 2) ∧ (ticks 5 s).addr = 0xFFFC ∧ (ticks 6 s).addr = 0xFFFD ∧
        (ticks 7 s).addr = mkWord (s.readByte 0xFFFD) (s.readByte 0xFFFC) ∧ (ticks 7 s).sync = true ∧
        (∀ k, k ≤ 7 → (ticks k s).rw = false) ∧ ∀ k, 0 < k → k < 7 → (ticks k s).sync = false

/-- R301, R307-R313, R318-R320. -/
def Obligations.InterruptEntry : Prop :=
  ∀ s : State, s.AtBoundary → (recognised s).res = false → recognises s = true →
    (takeInterrupt s).arch = (({ s.arch with p := setFlag s.p .b false } : Arch).pushFrame s.pc).enterHandler
        (if (recognised s).nmi then 0xFFFA else 0xFFFE) ∧
      (takeInterrupt s).AtBoundary

/-- R316. -/
def Obligations.SequenceEffects : Prop :=
  ∀ s t : State, s.AtBoundary → (recognises s = true ∧ t = takeInterrupt s ∨ exec .brk s = .next t) →
    t.sp = s.sp - 3 ∧ t.flag .i = true ∧ t.flag .b = true ∧
      (∀ f ∈ ([.d, .n, .v, .z, .c] : List Flag), t.flag f = s.flag f) ∧ t.a = s.a ∧ t.x = s.x ∧ t.y = s.y ∧
      ((exec .brk s = .next t ∧ t.pc = t.arch.word 0xFFFE) ∨ (recognises s = true ∧ t.pc = t.arch.word (vectorAddr (recognised s))))

/-- R171-R173, at the addresses of R71. -/
def Obligations.LoadInstructions : Prop :=
  ∀ s : State, s.AtBoundary →
    (RunsImmediate s (fun v r => { r with a := v, p := setNZ r.p v }) .ldaImm ∧
      ∀ form ∈ ([.idx .ldaIdx, .zp .ldaZp, .abs .ldaAbs, .idy .ldaIdy, .zpx .ldaZpx, .aby .ldaAby, .abx .ldaAbx] : List MemForm),
        RunsRead s (fun v r => { r with a := v, p := setNZ r.p v }) form) ∧
    (RunsImmediate s (fun v r => { r with x := v, p := setNZ r.p v }) .ldxImm ∧
      ∀ form ∈ ([.zp .ldxZp, .abs .ldxAbs, .zpy .ldxZpy, .aby .ldxAby] : List MemForm),
        RunsRead s (fun v r => { r with x := v, p := setNZ r.p v }) form) ∧
    (RunsImmediate s (fun v r => { r with y := v, p := setNZ r.p v }) .ldyImm ∧
      ∀ form ∈ ([.zp .ldyZp, .abs .ldyAbs, .zpx .ldyZpx, .abx .ldyAbx] : List MemForm),
        RunsRead s (fun v r => { r with y := v, p := setNZ r.p v }) form)

/-- R174-R176, at the addresses of R71. -/
def Obligations.StoreInstructions : Prop :=
  ∀ s : State, s.AtBoundary →
    (∀ form ∈ ([.idx .staIdx, .zp .staZp, .abs .staAbs, .idy .staIdy, .zpx .staZpx, .aby .staAby, .abx .staAbx] : List MemForm),
      RunsStore s s.a form) ∧
    (∀ form ∈ ([.zp .stxZp, .abs .stxAbs, .zpy .stxZpy] : List MemForm), RunsStore s s.x form) ∧
    (∀ form ∈ ([.zp .styZp, .abs .styAbs, .zpx .styZpx] : List MemForm), RunsStore s s.y form)

/-- R177-R182 (of R181 not its remark on the value of S after power-on). -/
def Obligations.TransferInstructions : Prop :=
  ∀ s : State, s.AtBoundary →
    (Instr.tax.opcode = 0xAA ∧ RunsImplied s (fun r => { r with x := r.a, p := setNZ r.p r.a }) .tax) ∧
    (Instr.tay.opcode = 0xA8 ∧ RunsImplied s (fun r => { r with y := r.a, p := setNZ r.p r.a }) .tay) ∧
    (Instr.txa.opcode = 0x8A ∧ RunsImplied s (fun r => { r with a := r.x, p := setNZ r.p r.x }) .txa) ∧
    (Instr.tya.opcode = 0x98 ∧ RunsImplied s (fun r => { r with a := r.y, p := setNZ r.p r.y }) .tya) ∧
    (Instr.tsx.opcode = 0xBA ∧ RunsImplied s (fun r => { r with x := r.sp, p := setNZ r.p r.sp }) .tsx) ∧
    (Instr.txs.opcode = 0x9A ∧ RunsImplied s (fun r => { r with sp := r.x }) .txs)

/-- R183-R189 (the remarks on interrupt recognition of R185 and R186 are CliDelaysIrq's). -/
def Obligations.FlagInstructions : Prop :=
  ∀ s : State, s.AtBoundary →
    ∀ q ∈ ([(.clc, 0x18, .c, false), (.sec, 0x38, .c, true), (.cli, 0x58, .i, false), (.sei, 0x78, .i, true),
        (.cld, 0xD8, .d, false), (.sed, 0xF8, .d, true), (.clv, 0xB8, .v, false)] : List (Instr × Byte × Flag × Bool)),
      q.1.opcode = q.2.1 ∧ ∃ t, exec q.1 s = .next t ∧ t.AtBoundary ∧
        t.arch = { s.arch.skip 1 with p := t.p } ∧ ∀ f, t.flag f = if f = q.2.2.1 then q.2.2.2 else s.flag f

/-- R200-R202, R158. -/
def Obligations.LogicInstructions : Prop :=
  ∀ s : State, s.AtBoundary →
    (RunsImmediate s (fun v r => { r with a := r.a ||| v, p := setNZ r.p (r.a ||| v) }) .oraImm ∧
      ∀ form ∈ ([.idx .oraIdx, .zp .oraZp, .abs .oraAbs, .idy .oraIdy, .zpx .oraZpx, .aby .oraAby, .abx .oraAbx] : List MemForm),
        RunsRead s (fun v r => { r with a := r.a ||| v, p := setNZ r.p (r.a ||| v) }) form) ∧
    (RunsImmediate s (fun v r => { r with a := r.a &&& v, p := setNZ r.p (r.a &&& v) }) .andImm ∧
      ∀ form ∈ ([.idx .andIdx, .zp .andZp, .abs .andAbs, .idy .andIdy, .zpx .andZpx, .aby .andAby, .abx .andAbx] : List MemForm),
        RunsRead s (fun v r => { r with a := r.a &&& v, p := setNZ r.p (r.a &&& v) }) form) ∧
    (RunsImmediate s (fun v r => { r with a := r.a ^^^ v, p := setNZ r.p (r.a ^^^ v) }) .eorImm ∧
      ∀ form ∈ ([.idx .eorIdx, .zp .eorZp, .abs .eorAbs, .idy .eorIdy, .zpx .eorZpx, .aby .eorAby, .abx .eorAbx] : List MemForm),
        RunsRead s (fun v r => { r with a := r.a ^^^ v, p := setNZ r.p (r.a ^^^ v) }) form)

/-- R203, R142, R144, R146. -/
def Obligations.AdditionInstruction : Prop :=
  ∀ s : State, s.AtBoundary →
    let effect : Byte → Arch → Arch := fun v r => r.loadAlu
      (if r.flag .d = false then adcBin r.a v (r.flag .c)
        else if isBcd r.a && isBcd v then adcDec r.a v (r.flag .c) else Config.decimalInvalid .adc r.a v (r.flag .c))
    RunsImmediate s effect .adcImm ∧
      ∀ form ∈ ([.idx .adcIdx, .zp .adcZp, .abs .adcAbs, .idy .adcIdy, .zpx .adcZpx, .aby .adcAby, .abx .adcAbx] : List MemForm),
        RunsRead s effect form

/-- R204, R281, R143, R145, R146. -/
def Obligations.SubtractionInstruction : Prop :=
  ∀ s : State, s.AtBoundary →
    let effect : Byte → Arch → Arch := fun v r => r.loadAlu
      (if r.flag .d = false then sbcBin r.a v (r.flag .c)
        else if isBcd r.a && isBcd v then sbcDec r.a v (r.flag .c) else Config.decimalInvalid .sbc r.a v (r.flag .c))
    RunsImmediate s effect .sbcImm ∧ RunsImmediate s effect .sbcImmEB ∧
      ∀ form ∈ ([.idx .sbcIdx, .zp .sbcZp, .abs .sbcAbs, .idy .sbcIdy, .zpx .sbcZpx, .aby .sbcAby, .abx .sbcAbx] : List MemForm),
        RunsRead s effect form

/-- R205-R208; the flags of cmpStatus and bitStatus are CompareFlags's. -/
def Obligations.CompareInstructions : Prop :=
  ∀ s : State, s.AtBoundary →
    (RunsImmediate s (fun v r => { r with p := cmpStatus r.p r.a v }) .cmpImm ∧
      ∀ form ∈ ([.idx .cmpIdx, .zp .cmpZp, .abs .cmpAbs, .idy .cmpIdy, .zpx .cmpZpx, .aby .cmpAby, .abx .cmpAbx] : List MemForm),
        RunsRead s (fun v r => { r with p := cmpStatus r.p r.a v }) form) ∧
    (RunsImmediate s (fun v r => { r with p := cmpStatus r.p r.x v }) .cpxImm ∧
      ∀ form ∈ ([.zp .cpxZp, .abs .cpxAbs] : List MemForm),
        RunsRead s (fun v r => { r with p := cmpStatus r.p r.x v }) form) ∧
    (RunsImmediate s (fun v r => { r with p := cmpStatus r.p r.y v }) .cpyImm ∧
      ∀ form ∈ ([.zp .cpyZp, .abs .cpyAbs] : List MemForm),
        RunsRead s (fun v r => { r with p := cmpStatus r.p r.y v }) form) ∧
    ∀ form ∈ ([.zp .bitZp, .abs .bitAbs] : List MemForm), RunsRead s (fun v r => { r with p := bitStatus r.p r.a v }) form

/-- R209-R212. -/
def Obligations.RegisterIncrements : Prop :=
  ∀ s : State, s.AtBoundary →
    (Instr.inx.opcode = 0xE8 ∧ RunsImplied s (fun r => { r with x := r.x + 1, p := setNZ r.p (r.x + 1) }) .inx) ∧
    (Instr.iny.opcode = 0xC8 ∧ RunsImplied s (fun r => { r with y := r.y + 1, p := setNZ r.p (r.y + 1) }) .iny) ∧
    (Instr.dex.opcode = 0xCA ∧ RunsImplied s (fun r => { r with x := r.x - 1, p := setNZ r.p (r.x - 1) }) .dex) ∧
    (Instr.dey.opcode = 0x88 ∧ RunsImplied s (fun r => { r with y := r.y - 1, p := setNZ r.p (r.y - 1) }) .dey)

/-- R214-R216, R157. -/
def Obligations.MemoryIncrements : Prop :=
  ∀ s : State, s.AtBoundary → s.mem.wf →
    (∀ form ∈ ([.zp .incZp, .abs .incAbs, .zpx .incZpx, .abx .incAbx] : List MemForm),
      RunsModify s (fun v r => (v + 1, { r with p := setNZ r.p (v + 1) })) form) ∧
    ∀ form ∈ ([.zp .decZp, .abs .decAbs, .zpx .decZpx, .abx .decAbx] : List MemForm),
      RunsModify s (fun v r => (v - 1, { r with p := setNZ r.p (v - 1) })) form

/-- R214, R217-R220; what asl, lsr, rol and ror come to is ShiftResults's. -/
def Obligations.MemoryShifts : Prop :=
  ∀ s : State, s.AtBoundary → s.mem.wf →
    (∀ form ∈ ([.zp .aslZp, .abs .aslAbs, .zpx .aslZpx, .abx .aslAbx] : List MemForm),
      RunsModify s (fun v r => ((asl v).1, { r with p := shiftStatus r.p (asl v) })) form) ∧
    (∀ form ∈ ([.zp .lsrZp, .abs .lsrAbs, .zpx .lsrZpx, .abx .lsrAbx] : List MemForm),
      RunsModify s (fun v r => ((lsr v).1, { r with p := shiftStatus r.p (lsr v) })) form) ∧
    (∀ form ∈ ([.zp .rolZp, .abs .rolAbs, .zpx .rolZpx, .abx .rolAbx] : List MemForm),
      RunsModify s (fun v r => ((rol v (r.flag .c)).1, { r with p := shiftStatus r.p (rol v (r.flag .c)) })) form) ∧
    (∀ form ∈ ([.zp .rorZp, .abs .rorAbs, .zpx .rorZpx, .abx .rorAbx] : List MemForm),
      RunsModify s (fun v r => ((ror v (r.flag .c)).1, { r with p := shiftStatus r.p (ror v (r.flag .c)) })) form)

/-- R213, R217-R220. -/
def Obligations.AccumulatorShifts : Prop :=
  ∀ s : State, s.AtBoundary →
    RunsImplied s (fun r => { r with a := (asl r.a).1, p := shiftStatus r.p (asl r.a) }) .aslA ∧
    RunsImplied s (fun r => { r with a := (lsr r.a).1, p := shiftStatus r.p (lsr r.a) }) .lsrA ∧
    RunsImplied s (fun r => { r with a := (rol r.a (r.flag .c)).1, p := shiftStatus r.p (rol r.a (r.flag .c)) }) .rolA ∧
    RunsImplied s (fun r => { r with a := (ror r.a (r.flag .c)).1, p := shiftStatus r.p (ror r.a (r.flag .c)) }) .rorA

/-- R230, R231, R23, R31. -/
def Obligations.PushInstructions : Prop :=
  ∀ s : State, s.AtBoundary →
    Completes .pha s { s.arch.skip 1 with sp := s.sp - 1, mem := s.mem.write (0x0100 ||| zext16 s.sp).toNat s.a } ∧
    Completes .php s { s.arch.skip 1 with sp := s.sp - 1, mem := s.mem.write (0x0100 ||| zext16 s.sp).toNat (s.p ||| 0x20) }

/-- R232, R233, R23, R30, R31. -/
def Obligations.PullInstructions : Prop :=
  ∀ s : State, s.AtBoundary → let v := s.readByte (0x0100 ||| zext16 (s.sp + 1))
    Completes .pla s { s.arch.skip 1 with sp := s.sp + 1, a := v, p := setNZ s.p v } ∧
    Completes .plp s { s.arch.skip 1 with sp := s.sp + 1, p := (v ||| 0x10) &&& ~~~0x20 }

/-- R234, R235, R56 (c). -/
def Obligations.JumpInstructions : Prop :=
  ∀ (s : State) (k : Word), s.AtBoundary →
    Completes (.jmpAbs k) s { s.arch with pc := k } ∧
    Completes (.jmpInd k) s { s.arch with
      pc := mkWord (s.readByte ((k &&& 0xFF00) ||| ((k + 1) &&& 0x00FF))) (s.readByte k) }

/-- R236. -/
def Obligations.SubroutineCall : Prop :=
  ∀ (s : State) (k : Word), s.AtBoundary → s.mem.wf →
    Completes (.jsr k) s { s.arch.pushWord (s.pc + 2) with
      pc := mkWord (if s.pc + 2 = stackAddr s.sp then hi (s.pc + 2)
        else if s.pc + 2 = stackAddr (s.sp - 1) then lo (s.pc + 2) else hi k) (lo k) }

/-- R237. -/
def Obligations.SubroutineReturn : Prop :=
  ∀ s : State, s.AtBoundary → Completes .rts s { s.arch with
    sp := s.sp + 2, pc := mkWord (s.readByte (stackAddr (s.sp + 2))) (s.readByte (stackAddr (s.sp + 1))) + 1 }

/-- R238, R322. -/
def Obligations.InterruptReturn : Prop :=
  ∀ s : State, s.AtBoundary → Completes .rti s { s.arch with
    sp := s.sp + 3, p := (s.readByte (stackAddr (s.sp + 1)) ||| 0x10) &&& ~~~0x20
    pc := mkWord (s.readByte (stackAddr (s.sp + 3))) (s.readByte (stackAddr (s.sp + 2))) }

/-- R239, R308-R313. -/
def Obligations.SoftwareInterrupt : Prop :=
  ∀ s : State, s.AtBoundary →
    Completes .brk s (({ s.arch with
        sp := s.sp - 3
        mem := ((s.mem.write (stackAddr s.sp).toNat (hi (s.pc + 2))).write (stackAddr (s.sp - 1)).toNat
          (lo (s.pc + 2))).write (stackAddr (s.sp - 2)).toNat (s.p ||| 0x20) } : Arch).enterHandler 0xFFFE)

/-- R240, R242-R249, R79. -/
def Obligations.BranchInstructions : Prop :=
  ∀ (s : State) (o : Int), s.AtBoundary → -128 ≤ o → o ≤ 127 →
    ∀ q ∈ ([(.bpl o, .n, false), (.bmi o, .n, true), (.bvc o, .v, false), (.bvs o, .v, true), (.bcc o, .c, false),
        (.bcs o, .c, true), (.bne o, .z, false), (.beq o, .z, true)] : List (Instr × Flag × Bool)),
      Completes q.1 s { s.arch with pc := if s.flag q.2.1 = q.2.2 then s.pc + 2 + BitVec.ofInt 16 o else s.pc + 2 }

/-- R250, R282, R81. -/
def Obligations.NopInstructions : Prop :=
  ∀ s : State, s.AtBoundary →
    (∀ i ∈ ([.nop1A, .nop3A, .nop5A, .nop7A, .nopDA, .nopEA, .nopFA] : List Instr), RunsImplied s (fun r => r) i) ∧
    (∀ make ∈ ([.nopImm80, .nopImm82, .nopImm89, .nopImmC2, .nopImmE2] : List (Byte → Instr)), RunsImmediate s (fun _ r => r) make) ∧
    ∀ form ∈ ([.zp .nopZp04, .abs .nopAbs0C, .zpx .nopZpx14, .abx .nopAbx1C, .zpx .nopZpx34, .abx .nopAbx3C, .zp .nopZp44,
        .zpx .nopZpx54, .abx .nopAbx5C, .zp .nopZp64, .zpx .nopZpx74, .abx .nopAbx7C, .zpx .nopZpxD4, .abx .nopAbxDC,
        .zpx .nopZpxF4, .abx .nopAbxFC] : List MemForm),
      RunsRead s (fun _ r => r) form

/-- R261-R264, R267, R268, R214; RRA and ISB with P.D = 1 and a byte that is no BCD number: R146 (log entry 9). -/
def Obligations.CombinedModifyInstructions : Prop :=
  ∀ s : State, s.AtBoundary → s.mem.wf →
    (∀ form ∈ ([.idx .sloIdx, .zp .sloZp, .abs .sloAbs, .idy .sloIdy, .zpx .sloZpx, .aby .sloAby, .abx .sloAbx] : List MemForm),
      RunsModify s (fun v r => ((asl v).1, { r with a := r.a ||| (asl v).1, p := setNZ (shiftStatus r.p (asl v)) (r.a ||| (asl v).1) })) form) ∧
    (∀ form ∈ ([.idx .rlaIdx, .zp .rlaZp, .abs .rlaAbs, .idy .rlaIdy, .zpx .rlaZpx, .aby .rlaAby, .abx .rlaAbx] : List MemForm),
      RunsModify s (fun v r => ((rol v (r.flag .c)).1, { r with
          a := r.a &&& (rol v (r.flag .c)).1
          p := setNZ (shiftStatus r.p (rol v (r.flag .c))) (r.a &&& (rol v (r.flag .c)).1) })) form) ∧
    (∀ form ∈ ([.idx .sreIdx, .zp .sreZp, .abs .sreAbs, .idy .sreIdy, .zpx .sreZpx, .aby .sreAby, .abx .sreAbx] : List MemForm),
      RunsModify s (fun v r => ((lsr v).1, { r with a := r.a ^^^ (lsr v).1, p := setNZ (shiftStatus r.p (lsr v)) (r.a ^^^ (lsr v).1) })) form) ∧
    (∀ form ∈ ([.idx .rraIdx, .zp .rraZp, .abs .rraAbs, .idy .rraIdy, .zpx .rraZpx, .aby .rraAby, .abx .rraAbx] : List MemForm),
      RunsModify s (fun v r => let w := ror v (r.flag .c)
          (w.1, r.loadAlu (if r.flag .d = false then adcBin r.a w.1 w.2
            else if isBcd r.a && isBcd w.1 then adcDec r.a w.1 w.2 else Config.decimalInvalid .rra r.a w.1 w.2))) form) ∧
    (∀ form ∈ ([.idx .dcpIdx, .zp .dcpZp, .abs .dcpAbs, .idy .dcpIdy, .zpx .dcpZpx, .aby .dcpAby, .abx .dcpAbx] : List MemForm),
      RunsModify s (fun v r => (v - 1, { r with p := cmpStatus r.p r.a (v - 1) })) form) ∧
    (∀ form ∈ ([.idx .isbIdx, .zp .isbZp, .abs .isbAbs, .idy .isbIdy, .zpx .isbZpx, .aby .isbAby, .abx .isbAbx] : List MemForm),
      RunsModify s (fun v r => (v + 1, r.loadAlu (if r.flag .d = false then sbcBin r.a (v + 1) (r.flag .c)
          else if isBcd r.a && isBcd (v + 1) then sbcDec r.a (v + 1) (r.flag .c)
          else Config.decimalInvalid .isb r.a (v + 1) (r.flag .c)))) form)

/-- R265, R266. -/
def Obligations.SaxAndLax : Prop :=
  ∀ s : State, s.AtBoundary →
    (∀ form ∈ ([.idx .saxIdx, .zp .saxZp, .abs .saxAbs, .zpy .saxZpy] : List MemForm), RunsStore s (s.a &&& s.x) form) ∧
    ∀ form ∈ ([.idx .laxIdx, .zp .laxZp, .abs .laxAbs, .idy .laxIdy, .zpy .laxZpy, .aby .laxAby] : List MemForm),
      RunsRead s (fun v r => { r with a := v, x := v, p := setNZ r.p v }) form

/-- R269-R271, R274, R156; what arrBin and arrDec come to is ArrResults's (R151, R152); that a decimal ARR gives DecimalInvalid where
A or the operand is no BCD number is R146, chosen over the narrower condition of R152 (A AND operand): the model's choice, log entry 9. -/
def Obligations.ImmediateCombinedInstructions : Prop :=
  ∀ s : State, s.AtBoundary →
    (∀ make ∈ ([.ancImm0B, .ancImm2B] : List (Byte → Instr)), RunsImmediate s (fun v r => { r with
        a := r.a &&& v, p := setFlag (setNZ r.p (r.a &&& v)) .c (r.a &&& v).msb }) make) ∧
    RunsImmediate s (fun v r => { r with a := (lsr (r.a &&& v)).1, p := shiftStatus r.p (lsr (r.a &&& v)) }) .asrImm ∧
    RunsImmediate s (fun v r => r.loadAlu
      (if r.flag .d = false then arrBin r.a v (r.flag .c)
        else if isBcd r.a && isBcd v then arrDec r.a v (r.flag .c)
        else Config.decimalInvalid .arr r.a v (r.flag .c))) .arrImm ∧
    RunsImmediate s (fun v r => { r with
      x := (r.a &&& r.x) - v, p := setFlag (setNZ r.p ((r.a &&& r.x) - v)) .c (v ≤ r.a &&& r.x) }) .sbxImm

/-- R260, R272, R273, R280 (log entry 7). -/
def Obligations.UnstableLoads : Prop :=
  ∀ s : State, s.AtBoundary →
    RunsImmediate s (fun v r => { r with
      a := (r.a ||| Config.magicAne) &&& r.x &&& v, p := setNZ r.p ((r.a ||| Config.magicAne) &&& r.x &&& v) }) .aneImm ∧
    RunsImmediate s (fun v r => { r with
      a := (r.a ||| Config.magicLxa) &&& v, x := (r.a ||| Config.magicLxa) &&& v
      p := setNZ r.p ((r.a ||| Config.magicLxa) &&& v) }) .lxaImm ∧
    RunsRead s (fun v r => { r with a := v &&& r.sp, x := v &&& r.sp, sp := v &&& r.sp, p := setNZ r.p (v &&& r.sp) })
      (.aby .lasAby)

/-- R275-R279 (log entry 8). -/
def Obligations.UnstableStores : Prop :=
  ∀ s : State, s.AtBoundary →
    (∀ k, Completes (.shaAby k) s ((s.arch.skip 3).store (k + zext16 s.y)
      (Config.unstableStore .sha s.a s.x s.y s.sp k s.y))) ∧
    (∀ z, Completes (.shaIdy z) s ((s.arch.skip 2).store (zeroPagePointer z s + zext16 s.y)
      (Config.unstableStore .sha s.a s.x s.y s.sp (zeroPagePointer z s) s.y))) ∧
    (∀ k, Completes (.shxAby k) s ((s.arch.skip 3).store (k + zext16 s.y)
      (Config.unstableStore .shx s.a s.x s.y s.sp k s.y))) ∧
    (∀ k, Completes (.shyAbx k) s ((s.arch.skip 3).store (k + zext16 s.x)
      (Config.unstableStore .shy s.a s.x s.y s.sp k s.x))) ∧
    ∀ k, Completes (.shsAby k) s (({ s.arch.skip 3 with sp := s.a &&& s.x } : Arch).store (k + zext16 s.y)
      (Config.unstableStore .shs s.a s.x s.y (s.a &&& s.x) k s.y))

/-- R290, R325; where JamResExits holds, RES leads out (JamIsIdempotent, log entry 10). -/
def Obligations.JamInstruction : Prop :=
  ∀ s : State, s.AtBoundary → (Config.jamResExits = true → s.NoReset) →
    ∀ i ∈ ([.jam02, .jam12, .jam22, .jam32, .jam42, .jam52, .jam62, .jam72, .jam92, .jamB2, .jamD2, .jamF2] : List Instr),
      ∃ t, exec i s = .next t ∧ t.arch = s.arch.skip 1 ∧ t.Jammed ∧ t.ad = s.ad ∧
        t.ir = (i.opcode.setWidth 11 <<< 3) ||| 1

/-- R142, and of R159 the clause on V. -/
def Obligations.BinaryAddition : Prop :=
  ∀ (a m : Byte) (c : Bool), let q := adcBin a m c
    q.r.toNat = (a.toNat + m.toNat + c.toNat) % 256 ∧ q.c = decide (256 ≤ a.toNat + m.toNat + c.toNat) ∧
      q.n = q.r.getLsbD 7 ∧ q.z = decide (q.r = 0) ∧ q.v = ((~~~(a ^^^ m)) &&& (a ^^^ q.r)).getLsbD 7 ∧
      (q.v = true ↔ a.toInt + m.toInt + c.toNat < -128 ∨ 127 < a.toInt + m.toInt + c.toNat) ∧
      (q.v = true → a.msb = m.msb) ∧
      ∀ r : Arch, { r.loadAlu q with a := r.a, p := r.p } = r ∧ (r.loadAlu q).a = q.r ∧
        ∀ f, (r.loadAlu q).flag f = match f with | .n => q.n | .v => q.v | .z => q.z | .c => q.c | f => r.flag f

/-- R143. -/
def Obligations.BinarySubtraction : Prop :=
  ∀ (a m : Byte) (c : Bool), let q := sbcBin a m c
    (q.r.toNat : Int) = ((a.toNat : Int) - m.toNat - (1 - c.toNat)) % 256 ∧ q.c = decide (m.toNat + (1 - c.toNat) ≤ a.toNat) ∧
      q.n = q.r.getLsbD 7 ∧ q.z = decide (q.r = 0) ∧ q.v = ((a ^^^ m) &&& (a ^^^ q.r)).getLsbD 7 ∧
      (q.v = true ↔ a.toInt - m.toInt - (1 - c.toNat) < -128 ∨ 127 < a.toInt - m.toInt - (1 - c.toNat)) ∧
      q = adcBin a (~~~m) c ∧
      ∀ r : Arch, { r.loadAlu q with a := r.a, p := r.p } = r ∧ (r.loadAlu q).a = q.r ∧
        ∀ f, (r.loadAlu q).flag f = match f with | .n => q.n | .v => q.v | .z => q.z | .c => q.c | f => r.flag f

/-- R144, R145, R147. -/
def Obligations.DecimalArithmetic : Prop :=
  ∀ (a m : Byte) (c : Bool), isBcd a = true → isBcd m = true →
    let value : Byte → Nat := fun v => 10 * (v.toNat / 16) + v.toNat % 16
    let s := adcDec a m c
    let d := sbcDec a m c
    isBcd s.r = true ∧ value s.r = (value a + value m + c.toNat) % 100 ∧ s.c = decide (100 ≤ value a + value m + c.toNat) ∧
      s.z = (adcBin a m c).z ∧
      (let tens := a.toNat / 16 + m.toNat / 16 + if 9 < a.toNat % 16 + m.toNat % 16 + c.toNat then 1 else 0
       s.n = (!s.z && tens.testBit 3) ∧ s.v = (a.msb == m.msb && a.msb != tens.testBit 3)) ∧
      isBcd d.r = true ∧
      (value d.r : Int) = ((value a : Int) - value m - (1 - c.toNat)) % 100 ∧
      d.n = (sbcBin a m c).n ∧ d.v = (sbcBin a m c).v ∧ d.z = (sbcBin a m c).z ∧ d.c = (sbcBin a m c).c

/-- R151, R152. Where a decimal ARR takes this result and where DecimalInvalid is ImmediateCombinedInstructions's. -/
def Obligations.ArrResults : Prop :=
  (∀ (a m : Byte) (c : Bool), let t := (a &&& m).toNat
    let r := 128 * c.toNat + t / 2
    let q := arrBin a m c
    let d := arrDec a m c
    (q.r.toNat = r ∧ q.n = r.testBit 7 ∧ q.z = decide (r = 0) ∧ q.c = r.testBit 6 ∧ q.v = (r.testBit 6 != r.testBit 5)) ∧
      d.r.toNat = 16 * (if 5 ≤ t / 16 then (r / 16 + 6) % 16 else r / 16) + (if 5 ≤ t % 16 then (r % 16 + 6) % 16 else r % 16) ∧
      d.n = r.testBit 7 ∧ d.z = decide (r = 0) ∧ d.v = (r.testBit 6 != t.testBit 6) ∧ d.c = decide (5 ≤ t / 16)) ∧
    ∀ (q : AluResult) (r : Arch), { r.loadAlu q with a := r.a, p := r.p } = r ∧ (r.loadAlu q).a = q.r ∧
      ∀ f, (r.loadAlu q).flag f = match f with | .n => q.n | .v => q.v | .z => q.z | .c => q.c | f => r.flag f

/-- R148; the second clause is R155, the third R141. -/
def Obligations.CompareFlags : Prop :=
  ∀ p : Byte, (∀ r m f, getFlag (cmpStatus p r m) f = match f with
      | .c => decide (m ≤ r) | .z => decide (r = m) | .n => (r - m).getLsbD 7 | f => getFlag p f) ∧
    (∀ a m f, getFlag (bitStatus p a m) f = match f with
      | .z => decide (a &&& m = 0) | .n => m.getLsbD 7 | .v => m.getLsbD 6 | f => getFlag p f) ∧
    ∀ v f, getFlag (setNZ p v) f = match f with | .n => v.getLsbD 7 | .z => decide (v = 0) | f => getFlag p f

/-- R149, R150, R153, R154. -/
def Obligations.ShiftResults : Prop :=
  ∀ (v : Byte) (c : Bool), (asl v).1.toNat = 2 * v.toNat % 256 ∧ (asl v).2 = v.getLsbD 7 ∧ (lsr v).1.toNat = v.toNat / 2 ∧
    (lsr v).2 = v.getLsbD 0 ∧ (rol v c).1.toNat = (2 * v.toNat + c.toNat) % 256 ∧ (rol v c).2 = v.getLsbD 7 ∧
    (ror v c).1.toNat = 128 * c.toNat + v.toNat / 2 ∧ (ror v c).2 = v.getLsbD 0 ∧
    ∀ p, getFlag (shiftStatus p (lsr v)) .n = false ∧ ∀ q f, getFlag (shiftStatus p q) f = match f with
      | .c => q.2 | .n => q.1.getLsbD 7 | .z => decide (q.1 = 0) | f => getFlag p f

/-- R39: the writers of each register. -/
def Obligations.RegisterWriters : Prop :=
  ∀ (i : Instr) (s t : State), exec i s = .next t →
    (i.opcode ∉ ([0x01, 0x03, 0x05, 0x07, 0x09, 0x0A, 0x0B, 0x0D, 0x0F, 0x11, 0x13, 0x15, 0x17, 0x19, 0x1B, 0x1D, 0x1F, 0x21, 0x23, 0x25,
      0x27, 0x29, 0x2A, 0x2B, 0x2D, 0x2F, 0x31, 0x33, 0x35, 0x37, 0x39, 0x3B, 0x3D, 0x3F, 0x41, 0x43, 0x45, 0x47, 0x49, 0x4A,
      0x4B, 0x4D, 0x4F, 0x51, 0x53, 0x55, 0x57, 0x59, 0x5B, 0x5D, 0x5F, 0x61, 0x63, 0x65, 0x67, 0x68, 0x69, 0x6A, 0x6B, 0x6D,
      0x6F, 0x71, 0x73, 0x75, 0x77, 0x79, 0x7B, 0x7D, 0x7F, 0x8A, 0x8B, 0x98, 0xA1, 0xA3, 0xA5, 0xA7, 0xA9, 0xAB, 0xAD, 0xAF,
      0xB1, 0xB3, 0xB5, 0xB7, 0xB9, 0xBB, 0xBD, 0xBF, 0xE1, 0xE3, 0xE5, 0xE7, 0xE9, 0xEB, 0xED, 0xEF, 0xF1, 0xF3, 0xF5, 0xF7,
      0xF9, 0xFB, 0xFD, 0xFF] : List Byte) → t.a = s.a) ∧
    (i.opcode ∉ ([0xA2, 0xA3, 0xA6, 0xA7, 0xAA, 0xAB, 0xAE, 0xAF, 0xB3, 0xB6, 0xB7, 0xBA, 0xBB, 0xBE, 0xBF, 0xCA, 0xCB, 0xE8] : List Byte) → t.x = s.x) ∧
    (i.opcode ∉ ([0x88, 0xA0, 0xA4, 0xA8, 0xAC, 0xB4, 0xBC, 0xC8] : List Byte) → t.y = s.y) ∧
    (i.opcode ∉ ([0x00, 0x08, 0x20, 0x28, 0x40, 0x48, 0x60, 0x68, 0x9A, 0x9B, 0xBB] : List Byte) → t.sp = s.sp)

/-- R27, R28, R30: the writers of I, D and B. -/
def Obligations.InterruptAndDecimalFlagWriters : Prop :=
  ∀ (i : Instr) (s t : State), exec i s = .next t →
    (i.opcode ∉ ([0x58, 0x78, 0x28, 0x40, 0x00] : List Byte) → t.flag .i = s.flag .i) ∧
    (i.opcode ∉ ([0xD8, 0xF8, 0x28, 0x40] : List Byte) → t.flag .d = s.flag .d) ∧
    (i.opcode ∉ ([0x28, 0x40, 0x00] : List Byte) → t.flag .b = s.flag .b) ∧
    (i.opcode ∈ ([0x28, 0x40, 0x00] : List Byte) → s.AtBoundary → t.flag .b = true)

/-- R74, R57, R124. -/
def Obligations.NonStoringInstructions : Prop :=
  ∀ (i : Instr) (s t : State), accessOf i = .none ∨ accessOf i = .read → i.opcode ≠ 0x00 → i.opcode ≠ 0x20 →
    exec i s = .next t → ∀ k, t.readByte k = s.readByte k

/-- R71, R74, R59. -/
def Obligations.StoringInstructions : Prop :=
  ∀ (i : Instr) (s t : State), s.AtBoundary → s.mem.wf → accessOf i = .write ∨ accessOf i = .readWrite →
    exec i s = .next t → ∀ k, k ≠ effectiveAddress i s → t.readByte k = s.readByte k

/-- R52, R63; the canonical form and what blank memory reads as are the model's (log entry 2). -/
def Obligations.MemoryReadsLastWrite : Prop :=
  ∀ m : Memory, m.wf →
    (∀ (k : Word) (v : Byte) (j : Word), (m.write k.toNat v).read j.toNat = if j = k then v else m.read j.toNat) ∧
    (∀ (k : Word) (v : Byte), (m.write k.toNat v).wf) ∧
    ∀ n : Memory, n.wf → (∀ k : Word, m.read k.toNat = n.read k.toNat) → m = n

/-- R104 (and R102, R103 for the sampling); the default of RdyShiftsNmi is not assumed (log entry 11), and the pins in the JAM state
are R325's by the model's reading (log entry 15). That the first tick of a new core is not stalled is R42, read as going before R104
(log entry 19). -/
def Obligations.RdyStall : Prop :=
  ∀ (s : State) (inp : Input), inp.lines.rdy = true →
    (s.rw = false → s.isNew = false → coreTick inp s = { s with
      addr := if s.inJam then 0xFFFF else s.addr
      dout := if s.inJam then 0xFF else inp.din
      intr :=
        { irqPip := (if inp.lines.irq && !s.flag .i then s.intr.irqPip ||| 1 else s.intr.irqPip) <<< 1
          nmiPip := (if inp.lines.nmi && !s.intr.nmiPrev then s.intr.nmiPip ||| 1 else s.intr.nmiPip) <<<
            (if Config.rdyShiftsNmi then 1 else 0)
          nmiPrev := inp.lines.nmi
          resLatch := s.intr.resLatch || inp.lines.res } }) ∧
    (s.rw = true ∨ s.isNew = true → coreTick inp s = coreTick { inp with lines := { inp.lines with rdy := false } } s)

/-- R325, R326, R290; what a tick with RDY asserted does there is the model's reading (log entry 15), and so is JamResExits left open
(log entry 10). -/
def Obligations.JamIsIdempotent : Prop :=
  ∀ (s : State) (inp : Input), s.inJam = true →
    let t := coreTick inp s
    t.ir = s.ir ∧ t.arch = s.arch ∧ t.ad = s.ad ∧ t.brk = s.brk ∧ t.dout = 0xFF ∧ t.rw = false ∧
      t.intr.nmiPrev = inp.lines.nmi ∧ t.intr.resLatch = (s.intr.resLatch || inp.lines.res) ∧
      if inp.lines.res && Config.jamResExits && !s.stalls inp.lines then t.addr = s.pc ∧ t.sync = true
      else t.addr = 0xFFFF ∧ t.sync = false ∧ t.inJam = true

/-- R59, R214. -/
def Obligations.ModifyBusCycles : Prop :=
  ∀ s : State, s.AtBoundary → s.mem.wf → s.Unstalled → recognises s = false → accessOf (fetched s) = .readWrite →
    ∃ n, let ea := effectiveAddress (fetched s) s
      step s = .next (ticks (n + 4) s) ∧
      ((ticks (n + 1) s).addr = ea ∧ (ticks (n + 1) s).rw = false) ∧
      ((ticks (n + 2) s).addr = ea ∧ (ticks (n + 2) s).rw = true ∧ (ticks (n + 2) s).dout = s.readByte ea) ∧
      ((ticks (n + 3) s).addr = ea ∧ (ticks (n + 3) s).rw = true ∧
        (ticks (n + 3) s).dout = (ticks (n + 4) s).readByte ea) ∧
      ((ticks (n + 4) s).sync = true ∧ (ticks (n + 4) s).rw = false)

/-- R304, R351, R102, R106, R108: `ticks k s` is the state before tick k + 1. The premise on irq_pip is part of the invariant
StepKeepsInvariant keeps. A taken branch in its page is BranchQuirk's. -/
def Obligations.IrqRecognitionTick : Prop :=
  ∀ s : State, s.AtBoundary → s.Unstalled → s.intr.irqPip.getLsbD 0 = false →
    (recognises s = false → isJam (fetched s) = false ∧ branchesInPage (fetched s) s = false) →
    let n := if recognises s then 7 else cyclesOf (fetched s) s
    let t := ticks n s
    step s = .next t ∧ 2 ≤ n ∧
      (recognised t).irq = ((ticks (n - 2) s).line.irq && !(ticks (n - 2) s).flag .i) ∧
      ((recognised t).nmi = true ↔ s.intr.nmiPip &&& 3 ≠ 0 ∨
        ∃ k, k < n - 1 ∧ (ticks k s).line.nmi = true ∧ (ticks k s).intr.nmiPrev = false)

/-- R346, every row; R185, R186, R233, R238, R322. -/
def Obligations.CliDelaysIrq : Prop :=
  ∀ s : State, s.AtBoundary → s.Unstalled → s.intr.irqPip = 0 → 10 ≤ s.lines.length → (∀ l ∈ s.lines, l.irq = true) →
    (∀ i ∈ ([.cli, .sei, .plp] : List Instr), ∀ t u, exec i s = .next t → exec .nopEA t = .next u →
      (recognised t).irq = (!s.flag .i) ∧ (recognised u).irq = (!t.flag .i)) ∧
    (∀ t u, exec .rti s = .next t → exec .nopEA t = .next u →
      (recognised t).irq = (!t.flag .i) ∧ (recognised u).irq = (!t.flag .i)) ∧
    ∀ t u, (recognises s = true ∧ t = takeInterrupt s ∨ exec .brk s = .next t) → exec .nopEA t = .next u →
      (recognised t).irq = false ∧ (recognised u).irq = false

/-- R240, R241, R347 (log entry 18). -/
def Obligations.BranchQuirk : Prop :=
  ∀ (s t : State) (o : Int) (l0 l1 l2 : Lines) (rest : List Lines), s.AtBoundary → s.Unstalled →
    s.intr.irqPip.getLsbD 0 = false → s.lines = l0 :: l1 :: l2 :: rest →
    ∀ q ∈ ([(.bpl o, .n, false), (.bmi o, .n, true), (.bvc o, .v, false), (.bvs o, .v, true), (.bcc o, .c, false),
        (.bcs o, .c, true), (.bne o, .z, false), (.beq o, .z, true)] : List (Instr × Flag × Bool)),
      s.flag q.2.1 = q.2.2 → exec q.1 s = .next t →
      (samePage (branchTarget o s) (s.pc + 2) = true → (recognised t).irq = (l0.irq && !s.flag .i)) ∧
      (samePage (branchTarget o s) (s.pc + 2) = false → (recognised t).irq = (l2.irq && !s.flag .i)) ∧
      (s.intr.nmiPip = 0 → s.intr.nmiPrev = false →
        (samePage (branchTarget o s) (s.pc + 2) = true →
          (recognised t).nmi = l0.nmi ∧ t.intr.nmiPrev = l2.nmi ∧
            (l0.nmi = false → l1.nmi = true → t.intr.nmiPip = 2) ∧
            (l0.nmi = false → l1.nmi = false → t.intr.nmiPip = 0)) ∧
        (samePage (branchTarget o s) (s.pc + 2) = false → (recognised t).nmi = (l0.nmi || l1.nmi || l2.nmi)))
end

