-- ==== Sys2Proof/Laws/Address.lean ====
section
/-!
SUPPORT. Laws of the address arithmetic: bytes and words, the carry into the page, wrapping in page 0.
-/
namespace Sys2Proof.Machine

theorem pc_two (k : Word) : k + 1 + 1 = k + 2 := by rw [BitVec.add_assoc]; rfl
theorem pc_three (k : Word) : k + 2 + 1 = k + 3 := by rw [BitVec.add_assoc]; rfl


theorem lowHigh (h l : Byte) : zext16 l ||| (zext16 h <<< 8) = mkWord h l := BitVec.or_comm _ _

theorem mkWord_hi_lo (a : Word) : mkWord (hi a) (lo a) = a := by
  ext j hj
  simp only [mkWord, hi, lo, BitVec.getElem_or, BitVec.getElem_shiftLeft, BitVec.getElem_setWidth, BitVec.getLsbD_setWidth,
    BitVec.getLsbD_ushiftRight]
  by_cases h : j < 8
  · simp [h, BitVec.getLsbD_eq_getElem hj]
  · have h2 : j - 8 < 8 := by omega
    have h3 : 8 + (j - 8) = j := by omega
    simp [h, h2, h3, hj]

theorem toNat_mkWord (h l : Byte) : (mkWord h l).toNat = h.toNat * 256 + l.toNat := by
  have hh := h.isLt
  have hl := l.isLt
  have := Nat.shiftLeft_add_eq_or_of_lt hl h.toNat
  simp only [mkWord, BitVec.toNat_or, BitVec.toNat_shiftLeft, BitVec.toNat_setWidth]
  rw [Nat.mod_eq_of_lt (a := h.toNat) (by omega), Nat.mod_eq_of_lt (a := l.toNat) (by omega), Nat.shiftLeft_eq,
    Nat.mod_eq_of_lt (by omega)]
  rw [Nat.shiftLeft_eq] at this
  omega

theorem toNat_lo (w : Word) : (lo w).toNat = w.toNat % 256 := by simp [lo]

theorem toNat_hi (w : Word) : (hi w).toNat = w.toNat / 256 := by
  have := w.isLt
  simp only [hi, BitVec.toNat_setWidth, BitVec.toNat_ushiftRight, Nat.shiftRight_eq_div_pow]
  omega

/-- An un-carried address: the page of the base, the low byte of the sum. -/
theorem pageAdd_eq (w : Word) (x : Byte) : pageAdd w x = mkWord (hi w) (lo (w + zext16 x)) := by
  ext j hj
  simp only [pageAdd, mkWord, hi, lo, BitVec.getElem_or, BitVec.getElem_and, BitVec.getElem_shiftLeft, BitVec.getElem_setWidth, BitVec.getLsbD_setWidth,
    BitVec.getLsbD_ushiftRight]
  by_cases h : j < 8
  · have h1 : (65280#16)[j] = false := by
      revert h; revert j; decide
    have h2 : (255#16)[j] = true := by
      revert h; revert j; decide
    simp [h, h1, h2, BitVec.getLsbD_eq_getElem hj]
  · have h1 : (65280#16)[j] = true := by
      revert h; revert j; decide
    have h2 : (255#16)[j] = false := by
      revert h; revert j; decide
    have h3 : 8 + (j - 8) = j := by omega
    have h4 : j - 8 < 8 := by omega
    simp [h, h1, h2, h3, h4, hj]

theorem crossesPage_iff (w : Word) (x : Byte) : crossesPage w x = true ↔ 256 ≤ w.toNat % 256 + x.toNat := by
  have h : (0x00FF : Word).toNat = 2 ^ 8 - 1 := rfl
  simp only [crossesPage, decide_eq_true_eq, BitVec.toNat_and, h, Nat.and_two_pow_sub_one_eq_mod]
  omega

theorem pageAdd_of_not_crosses {w : Word} {x : Byte} (h : crossesPage w x = false) : pageAdd w x = w + zext16 x := by
  have h' : ¬ 256 ≤ w.toNat % 256 + x.toNat := by rw [← crossesPage_iff, h]; simp
  have hx := x.isLt
  have hw := w.isLt
  apply BitVec.eq_of_toNat_eq
  rw [pageAdd_eq, toNat_mkWord, toNat_hi, toNat_lo]
  simp only [BitVec.toNat_add, BitVec.toNat_setWidth]
  omega

theorem zeroPageAdd_zext (z x : Byte) : zeroPageAdd (zext16 z) x = zext16 (z + x) := by
  apply BitVec.eq_of_toNat_eq
  have h : (0x00FF : Word).toNat = 2 ^ 8 - 1 := rfl
  have := z.isLt
  have := x.isLt
  simp only [zeroPageAdd, BitVec.toNat_and, h, Nat.and_two_pow_sub_one_eq_mod, BitVec.toNat_add, BitVec.toNat_setWidth]
  omega

@[simp] theorem lo_zext16 (v : Byte) : lo (zext16 v) = v := by
  apply BitVec.eq_of_toNat_eq
  rw [toNat_lo, BitVec.toNat_setWidth]
  have := v.isLt
  omega

@[simp] theorem lo_mkWord (h l : Byte) : lo (mkWord h l) = l := by
  apply BitVec.eq_of_toNat_eq
  rw [toNat_lo, toNat_mkWord]
  have := l.isLt
  omega

@[simp] theorem hi_mkWord (h l : Byte) : hi (mkWord h l) = h := by
  apply BitVec.eq_of_toNat_eq
  rw [toNat_hi, toNat_mkWord]
  have := l.isLt
  omega

end Sys2Proof.Machine
end

