-- ==== Sys2Proof/Laws/State.lean ====
section
/-!
SUPPORT. What each named update of the state does to each of its fields: one lemma per field per update.
-/
namespace Sys2Proof.Machine

@[simp] theorem State.fetch_a (s : State) : (s.fetch).a = s.a := rfl
@[simp] theorem State.fetch_x (s : State) : (s.fetch).x = s.x := rfl
@[simp] theorem State.fetch_y (s : State) : (s.fetch).y = s.y := rfl
@[simp] theorem State.fetch_sp (s : State) : (s.fetch).sp = s.sp := rfl
@[simp] theorem State.fetch_p (s : State) : (s.fetch).p = s.p := rfl
@[simp] theorem State.fetch_pc (s : State) : (s.fetch).pc = s.pc := rfl
@[simp] theorem State.fetch_ad (s : State) : (s.fetch).ad = s.ad := rfl
@[simp] theorem State.fetch_ir (s : State) : (s.fetch).ir = s.ir := rfl
@[simp] theorem State.fetch_brk (s : State) : (s.fetch).brk = s.brk := rfl
@[simp] theorem State.fetch_intr (s : State) : (s.fetch).intr = s.intr := rfl
@[simp] theorem State.fetch_addr (s : State) : (s.fetch).addr = s.pc := rfl
@[simp] theorem State.fetch_dout (s : State) : (s.fetch).dout = s.dout := rfl
@[simp] theorem State.fetch_rw (s : State) : (s.fetch).rw = s.rw := rfl
@[simp] theorem State.fetch_sync (s : State) : (s.fetch).sync = true := rfl
@[simp] theorem State.fetch_mem (s : State) : (s.fetch).mem = s.mem := rfl
@[simp] theorem State.fetch_lines (s : State) : (s.fetch).lines = s.lines := rfl

@[simp] theorem State.readAtPc_a (s : State) : (s.readAtPc).a = s.a := rfl
@[simp] theorem State.readAtPc_x (s : State) : (s.readAtPc).x = s.x := rfl
@[simp] theorem State.readAtPc_y (s : State) : (s.readAtPc).y = s.y := rfl
@[simp] theorem State.readAtPc_sp (s : State) : (s.readAtPc).sp = s.sp := rfl
@[simp] theorem State.readAtPc_p (s : State) : (s.readAtPc).p = s.p := rfl
@[simp] theorem State.readAtPc_pc (s : State) : (s.readAtPc).pc = s.pc := rfl
@[simp] theorem State.readAtPc_ad (s : State) : (s.readAtPc).ad = s.ad := rfl
@[simp] theorem State.readAtPc_ir (s : State) : (s.readAtPc).ir = s.ir := rfl
@[simp] theorem State.readAtPc_brk (s : State) : (s.readAtPc).brk = s.brk := rfl
@[simp] theorem State.readAtPc_intr (s : State) : (s.readAtPc).intr = s.intr := rfl
@[simp] theorem State.readAtPc_addr (s : State) : (s.readAtPc).addr = s.pc := rfl
@[simp] theorem State.readAtPc_dout (s : State) : (s.readAtPc).dout = s.dout := rfl
@[simp] theorem State.readAtPc_rw (s : State) : (s.readAtPc).rw = s.rw := rfl
@[simp] theorem State.readAtPc_sync (s : State) : (s.readAtPc).sync = s.sync := rfl
@[simp] theorem State.readAtPc_mem (s : State) : (s.readAtPc).mem = s.mem := rfl
@[simp] theorem State.readAtPc_lines (s : State) : (s.readAtPc).lines = s.lines := rfl

@[simp] theorem State.readOperand_a (s : State) : (s.readOperand).a = s.a := rfl
@[simp] theorem State.readOperand_x (s : State) : (s.readOperand).x = s.x := rfl
@[simp] theorem State.readOperand_y (s : State) : (s.readOperand).y = s.y := rfl
@[simp] theorem State.readOperand_sp (s : State) : (s.readOperand).sp = s.sp := rfl
@[simp] theorem State.readOperand_p (s : State) : (s.readOperand).p = s.p := rfl
@[simp] theorem State.readOperand_pc (s : State) : (s.readOperand).pc = s.pc + 1 := rfl
@[simp] theorem State.readOperand_ad (s : State) : (s.readOperand).ad = s.ad := rfl
@[simp] theorem State.readOperand_ir (s : State) : (s.readOperand).ir = s.ir := rfl
@[simp] theorem State.readOperand_brk (s : State) : (s.readOperand).brk = s.brk := rfl
@[simp] theorem State.readOperand_intr (s : State) : (s.readOperand).intr = s.intr := rfl
@[simp] theorem State.readOperand_addr (s : State) : (s.readOperand).addr = s.pc := rfl
@[simp] theorem State.readOperand_dout (s : State) : (s.readOperand).dout = s.dout := rfl
@[simp] theorem State.readOperand_rw (s : State) : (s.readOperand).rw = s.rw := rfl
@[simp] theorem State.readOperand_sync (s : State) : (s.readOperand).sync = s.sync := rfl
@[simp] theorem State.readOperand_mem (s : State) : (s.readOperand).mem = s.mem := rfl
@[simp] theorem State.readOperand_lines (s : State) : (s.readOperand).lines = s.lines := rfl

@[simp] theorem State.drive_a (s : State) (v : Byte) : (s.drive v).a = s.a := rfl
@[simp] theorem State.drive_x (s : State) (v : Byte) : (s.drive v).x = s.x := rfl
@[simp] theorem State.drive_y (s : State) (v : Byte) : (s.drive v).y = s.y := rfl
@[simp] theorem State.drive_sp (s : State) (v : Byte) : (s.drive v).sp = s.sp := rfl
@[simp] theorem State.drive_p (s : State) (v : Byte) : (s.drive v).p = s.p := rfl
@[simp] theorem State.drive_pc (s : State) (v : Byte) : (s.drive v).pc = s.pc := rfl
@[simp] theorem State.drive_ad (s : State) (v : Byte) : (s.drive v).ad = s.ad := rfl
@[simp] theorem State.drive_ir (s : State) (v : Byte) : (s.drive v).ir = s.ir := rfl
@[simp] theorem State.drive_brk (s : State) (v : Byte) : (s.drive v).brk = s.brk := rfl
@[simp] theorem State.drive_intr (s : State) (v : Byte) : (s.drive v).intr = s.intr := rfl
@[simp] theorem State.drive_addr (s : State) (v : Byte) : (s.drive v).addr = s.addr := rfl
@[simp] theorem State.drive_dout (s : State) (v : Byte) : (s.drive v).dout = v := rfl
@[simp] theorem State.drive_rw (s : State) (v : Byte) : (s.drive v).rw = true := rfl
@[simp] theorem State.drive_sync (s : State) (v : Byte) : (s.drive v).sync = s.sync := rfl
@[simp] theorem State.drive_mem (s : State) (v : Byte) : (s.drive v).mem = s.mem := rfl
@[simp] theorem State.drive_lines (s : State) (v : Byte) : (s.drive v).lines = s.lines := rfl

@[simp] theorem State.readStack_a (s : State) : (s.readStack).a = s.a := rfl
@[simp] theorem State.readStack_x (s : State) : (s.readStack).x = s.x := rfl
@[simp] theorem State.readStack_y (s : State) : (s.readStack).y = s.y := rfl
@[simp] theorem State.readStack_sp (s : State) : (s.readStack).sp = s.sp := rfl
@[simp] theorem State.readStack_p (s : State) : (s.readStack).p = s.p := rfl
@[simp] theorem State.readStack_pc (s : State) : (s.readStack).pc = s.pc := rfl
@[simp] theorem State.readStack_ad (s : State) : (s.readStack).ad = s.ad := rfl
@[simp] theorem State.readStack_ir (s : State) : (s.readStack).ir = s.ir := rfl
@[simp] theorem State.readStack_brk (s : State) : (s.readStack).brk = s.brk := rfl
@[simp] theorem State.readStack_intr (s : State) : (s.readStack).intr = s.intr := rfl
@[simp] theorem State.readStack_addr (s : State) : (s.readStack).addr = stackAddr s.sp := rfl
@[simp] theorem State.readStack_dout (s : State) : (s.readStack).dout = s.dout := rfl
@[simp] theorem State.readStack_rw (s : State) : (s.readStack).rw = s.rw := rfl
@[simp] theorem State.readStack_sync (s : State) : (s.readStack).sync = s.sync := rfl
@[simp] theorem State.readStack_mem (s : State) : (s.readStack).mem = s.mem := rfl
@[simp] theorem State.readStack_lines (s : State) : (s.readStack).lines = s.lines := rfl

@[simp] theorem State.stepStack_a (s : State) : (s.stepStack).a = s.a := rfl
@[simp] theorem State.stepStack_x (s : State) : (s.stepStack).x = s.x := rfl
@[simp] theorem State.stepStack_y (s : State) : (s.stepStack).y = s.y := rfl
@[simp] theorem State.stepStack_sp (s : State) : (s.stepStack).sp = s.sp + 1 := rfl
@[simp] theorem State.stepStack_p (s : State) : (s.stepStack).p = s.p := rfl
@[simp] theorem State.stepStack_pc (s : State) : (s.stepStack).pc = s.pc := rfl
@[simp] theorem State.stepStack_ad (s : State) : (s.stepStack).ad = s.ad := rfl
@[simp] theorem State.stepStack_ir (s : State) : (s.stepStack).ir = s.ir := rfl
@[simp] theorem State.stepStack_brk (s : State) : (s.stepStack).brk = s.brk := rfl
@[simp] theorem State.stepStack_intr (s : State) : (s.stepStack).intr = s.intr := rfl
@[simp] theorem State.stepStack_addr (s : State) : (s.stepStack).addr = stackAddr s.sp := rfl
@[simp] theorem State.stepStack_dout (s : State) : (s.stepStack).dout = s.dout := rfl
@[simp] theorem State.stepStack_rw (s : State) : (s.stepStack).rw = s.rw := rfl
@[simp] theorem State.stepStack_sync (s : State) : (s.stepStack).sync = s.sync := rfl
@[simp] theorem State.stepStack_mem (s : State) : (s.stepStack).mem = s.mem := rfl
@[simp] theorem State.stepStack_lines (s : State) : (s.stepStack).lines = s.lines := rfl

@[simp] theorem State.pushUnwritten_a (s : State) (v : Byte) : (s.pushUnwritten v).a = s.a := rfl
@[simp] theorem State.pushUnwritten_x (s : State) (v : Byte) : (s.pushUnwritten v).x = s.x := rfl
@[simp] theorem State.pushUnwritten_y (s : State) (v : Byte) : (s.pushUnwritten v).y = s.y := rfl
@[simp] theorem State.pushUnwritten_sp (s : State) (v : Byte) : (s.pushUnwritten v).sp = s.sp - 1 := rfl
@[simp] theorem State.pushUnwritten_p (s : State) (v : Byte) : (s.pushUnwritten v).p = s.p := rfl
@[simp] theorem State.pushUnwritten_pc (s : State) (v : Byte) : (s.pushUnwritten v).pc = s.pc := rfl
@[simp] theorem State.pushUnwritten_ad (s : State) (v : Byte) : (s.pushUnwritten v).ad = s.ad := rfl
@[simp] theorem State.pushUnwritten_ir (s : State) (v : Byte) : (s.pushUnwritten v).ir = s.ir := rfl
@[simp] theorem State.pushUnwritten_brk (s : State) (v : Byte) : (s.pushUnwritten v).brk = s.brk := rfl
@[simp] theorem State.pushUnwritten_intr (s : State) (v : Byte) : (s.pushUnwritten v).intr = s.intr := rfl
@[simp] theorem State.pushUnwritten_addr (s : State) (v : Byte) : (s.pushUnwritten v).addr = stackAddr s.sp := rfl
@[simp] theorem State.pushUnwritten_dout (s : State) (v : Byte) : (s.pushUnwritten v).dout = v := rfl
@[simp] theorem State.pushUnwritten_rw (s : State) (v : Byte) : (s.pushUnwritten v).rw = s.rw := rfl
@[simp] theorem State.pushUnwritten_sync (s : State) (v : Byte) : (s.pushUnwritten v).sync = s.sync := rfl
@[simp] theorem State.pushUnwritten_mem (s : State) (v : Byte) : (s.pushUnwritten v).mem = s.mem := rfl
@[simp] theorem State.pushUnwritten_lines (s : State) (v : Byte) : (s.pushUnwritten v).lines = s.lines := rfl

@[simp] theorem State.push_a (s : State) (v : Byte) : (s.push v).a = s.a := rfl
@[simp] theorem State.push_x (s : State) (v : Byte) : (s.push v).x = s.x := rfl
@[simp] theorem State.push_y (s : State) (v : Byte) : (s.push v).y = s.y := rfl
@[simp] theorem State.push_sp (s : State) (v : Byte) : (s.push v).sp = s.sp - 1 := rfl
@[simp] theorem State.push_p (s : State) (v : Byte) : (s.push v).p = s.p := rfl
@[simp] theorem State.push_pc (s : State) (v : Byte) : (s.push v).pc = s.pc := rfl
@[simp] theorem State.push_ad (s : State) (v : Byte) : (s.push v).ad = s.ad := rfl
@[simp] theorem State.push_ir (s : State) (v : Byte) : (s.push v).ir = s.ir := rfl
@[simp] theorem State.push_brk (s : State) (v : Byte) : (s.push v).brk = s.brk := rfl
@[simp] theorem State.push_intr (s : State) (v : Byte) : (s.push v).intr = s.intr := rfl
@[simp] theorem State.push_addr (s : State) (v : Byte) : (s.push v).addr = stackAddr s.sp := rfl
@[simp] theorem State.push_dout (s : State) (v : Byte) : (s.push v).dout = v := rfl
@[simp] theorem State.push_rw (s : State) (v : Byte) : (s.push v).rw = true := rfl
@[simp] theorem State.push_sync (s : State) (v : Byte) : (s.push v).sync = s.sync := rfl
@[simp] theorem State.push_mem (s : State) (v : Byte) : (s.push v).mem = s.mem := rfl
@[simp] theorem State.push_lines (s : State) (v : Byte) : (s.push v).lines = s.lines := rfl

@[simp] theorem State.withFlag_a (s : State) (f : Flag) (b : Bool) : (s.withFlag f b).a = s.a := rfl
@[simp] theorem State.withFlag_x (s : State) (f : Flag) (b : Bool) : (s.withFlag f b).x = s.x := rfl
@[simp] theorem State.withFlag_y (s : State) (f : Flag) (b : Bool) : (s.withFlag f b).y = s.y := rfl
@[simp] theorem State.withFlag_sp (s : State) (f : Flag) (b : Bool) : (s.withFlag f b).sp = s.sp := rfl
@[simp] theorem State.withFlag_p (s : State) (f : Flag) (b : Bool) : (s.withFlag f b).p = setFlag s.p f b := rfl
@[simp] theorem State.withFlag_pc (s : State) (f : Flag) (b : Bool) : (s.withFlag f b).pc = s.pc := rfl
@[simp] theorem State.withFlag_ad (s : State) (f : Flag) (b : Bool) : (s.withFlag f b).ad = s.ad := rfl
@[simp] theorem State.withFlag_ir (s : State) (f : Flag) (b : Bool) : (s.withFlag f b).ir = s.ir := rfl
@[simp] theorem State.withFlag_brk (s : State) (f : Flag) (b : Bool) : (s.withFlag f b).brk = s.brk := rfl
@[simp] theorem State.withFlag_intr (s : State) (f : Flag) (b : Bool) : (s.withFlag f b).intr = s.intr := rfl
@[simp] theorem State.withFlag_addr (s : State) (f : Flag) (b : Bool) : (s.withFlag f b).addr = s.addr := rfl
@[simp] theorem State.withFlag_dout (s : State) (f : Flag) (b : Bool) : (s.withFlag f b).dout = s.dout := rfl
@[simp] theorem State.withFlag_rw (s : State) (f : Flag) (b : Bool) : (s.withFlag f b).rw = s.rw := rfl
@[simp] theorem State.withFlag_sync (s : State) (f : Flag) (b : Bool) : (s.withFlag f b).sync = s.sync := rfl
@[simp] theorem State.withFlag_mem (s : State) (f : Flag) (b : Bool) : (s.withFlag f b).mem = s.mem := rfl
@[simp] theorem State.withFlag_lines (s : State) (f : Flag) (b : Bool) : (s.withFlag f b).lines = s.lines := rfl

@[simp] theorem State.nz_a (s : State) (v : Byte) : (s.nz v).a = s.a := rfl
@[simp] theorem State.nz_x (s : State) (v : Byte) : (s.nz v).x = s.x := rfl
@[simp] theorem State.nz_y (s : State) (v : Byte) : (s.nz v).y = s.y := rfl
@[simp] theorem State.nz_sp (s : State) (v : Byte) : (s.nz v).sp = s.sp := rfl
@[simp] theorem State.nz_p (s : State) (v : Byte) : (s.nz v).p = setNZ s.p v := rfl
@[simp] theorem State.nz_pc (s : State) (v : Byte) : (s.nz v).pc = s.pc := rfl
@[simp] theorem State.nz_ad (s : State) (v : Byte) : (s.nz v).ad = s.ad := rfl
@[simp] theorem State.nz_ir (s : State) (v : Byte) : (s.nz v).ir = s.ir := rfl
@[simp] theorem State.nz_brk (s : State) (v : Byte) : (s.nz v).brk = s.brk := rfl
@[simp] theorem State.nz_intr (s : State) (v : Byte) : (s.nz v).intr = s.intr := rfl
@[simp] theorem State.nz_addr (s : State) (v : Byte) : (s.nz v).addr = s.addr := rfl
@[simp] theorem State.nz_dout (s : State) (v : Byte) : (s.nz v).dout = s.dout := rfl
@[simp] theorem State.nz_rw (s : State) (v : Byte) : (s.nz v).rw = s.rw := rfl
@[simp] theorem State.nz_sync (s : State) (v : Byte) : (s.nz v).sync = s.sync := rfl
@[simp] theorem State.nz_mem (s : State) (v : Byte) : (s.nz v).mem = s.mem := rfl
@[simp] theorem State.nz_lines (s : State) (v : Byte) : (s.nz v).lines = s.lines := rfl

@[simp] theorem State.loadA_a (s : State) (v : Byte) : (s.loadA v).a = v := rfl
@[simp] theorem State.loadA_x (s : State) (v : Byte) : (s.loadA v).x = s.x := rfl
@[simp] theorem State.loadA_y (s : State) (v : Byte) : (s.loadA v).y = s.y := rfl
@[simp] theorem State.loadA_sp (s : State) (v : Byte) : (s.loadA v).sp = s.sp := rfl
@[simp] theorem State.loadA_p (s : State) (v : Byte) : (s.loadA v).p = setNZ s.p v := rfl
@[simp] theorem State.loadA_pc (s : State) (v : Byte) : (s.loadA v).pc = s.pc := rfl
@[simp] theorem State.loadA_ad (s : State) (v : Byte) : (s.loadA v).ad = s.ad := rfl
@[simp] theorem State.loadA_ir (s : State) (v : Byte) : (s.loadA v).ir = s.ir := rfl
@[simp] theorem State.loadA_brk (s : State) (v : Byte) : (s.loadA v).brk = s.brk := rfl
@[simp] theorem State.loadA_intr (s : State) (v : Byte) : (s.loadA v).intr = s.intr := rfl
@[simp] theorem State.loadA_addr (s : State) (v : Byte) : (s.loadA v).addr = s.addr := rfl
@[simp] theorem State.loadA_dout (s : State) (v : Byte) : (s.loadA v).dout = s.dout := rfl
@[simp] theorem State.loadA_rw (s : State) (v : Byte) : (s.loadA v).rw = s.rw := rfl
@[simp] theorem State.loadA_sync (s : State) (v : Byte) : (s.loadA v).sync = s.sync := rfl
@[simp] theorem State.loadA_mem (s : State) (v : Byte) : (s.loadA v).mem = s.mem := rfl
@[simp] theorem State.loadA_lines (s : State) (v : Byte) : (s.loadA v).lines = s.lines := rfl

@[simp] theorem State.loadX_a (s : State) (v : Byte) : (s.loadX v).a = s.a := rfl
@[simp] theorem State.loadX_x (s : State) (v : Byte) : (s.loadX v).x = v := rfl
@[simp] theorem State.loadX_y (s : State) (v : Byte) : (s.loadX v).y = s.y := rfl
@[simp] theorem State.loadX_sp (s : State) (v : Byte) : (s.loadX v).sp = s.sp := rfl
@[simp] theorem State.loadX_p (s : State) (v : Byte) : (s.loadX v).p = setNZ s.p v := rfl
@[simp] theorem State.loadX_pc (s : State) (v : Byte) : (s.loadX v).pc = s.pc := rfl
@[simp] theorem State.loadX_ad (s : State) (v : Byte) : (s.loadX v).ad = s.ad := rfl
@[simp] theorem State.loadX_ir (s : State) (v : Byte) : (s.loadX v).ir = s.ir := rfl
@[simp] theorem State.loadX_brk (s : State) (v : Byte) : (s.loadX v).brk = s.brk := rfl
@[simp] theorem State.loadX_intr (s : State) (v : Byte) : (s.loadX v).intr = s.intr := rfl
@[simp] theorem State.loadX_addr (s : State) (v : Byte) : (s.loadX v).addr = s.addr := rfl
@[simp] theorem State.loadX_dout (s : State) (v : Byte) : (s.loadX v).dout = s.dout := rfl
@[simp] theorem State.loadX_rw (s : State) (v : Byte) : (s.loadX v).rw = s.rw := rfl
@[simp] theorem State.loadX_sync (s : State) (v : Byte) : (s.loadX v).sync = s.sync := rfl
@[simp] theorem State.loadX_mem (s : State) (v : Byte) : (s.loadX v).mem = s.mem := rfl
@[simp] theorem State.loadX_lines (s : State) (v : Byte) : (s.loadX v).lines = s.lines := rfl

@[simp] theorem State.loadY_a (s : State) (v : Byte) : (s.loadY v).a = s.a := rfl
@[simp] theorem State.loadY_x (s : State) (v : Byte) : (s.loadY v).x = s.x := rfl
@[simp] theorem State.loadY_y (s : State) (v : Byte) : (s.loadY v).y = v := rfl
@[simp] theorem State.loadY_sp (s : State) (v : Byte) : (s.loadY v).sp = s.sp := rfl
@[simp] theorem State.loadY_p (s : State) (v : Byte) : (s.loadY v).p = setNZ s.p v := rfl
@[simp] theorem State.loadY_pc (s : State) (v : Byte) : (s.loadY v).pc = s.pc := rfl
@[simp] theorem State.loadY_ad (s : State) (v : Byte) : (s.loadY v).ad = s.ad := rfl
@[simp] theorem State.loadY_ir (s : State) (v : Byte) : (s.loadY v).ir = s.ir := rfl
@[simp] theorem State.loadY_brk (s : State) (v : Byte) : (s.loadY v).brk = s.brk := rfl
@[simp] theorem State.loadY_intr (s : State) (v : Byte) : (s.loadY v).intr = s.intr := rfl
@[simp] theorem State.loadY_addr (s : State) (v : Byte) : (s.loadY v).addr = s.addr := rfl
@[simp] theorem State.loadY_dout (s : State) (v : Byte) : (s.loadY v).dout = s.dout := rfl
@[simp] theorem State.loadY_rw (s : State) (v : Byte) : (s.loadY v).rw = s.rw := rfl
@[simp] theorem State.loadY_sync (s : State) (v : Byte) : (s.loadY v).sync = s.sync := rfl
@[simp] theorem State.loadY_mem (s : State) (v : Byte) : (s.loadY v).mem = s.mem := rfl
@[simp] theorem State.loadY_lines (s : State) (v : Byte) : (s.loadY v).lines = s.lines := rfl

@[simp] theorem State.loadAlu_a (s : State) (q : AluResult) : (s.loadAlu q).a = q.r := rfl
@[simp] theorem State.loadAlu_x (s : State) (q : AluResult) : (s.loadAlu q).x = s.x := rfl
@[simp] theorem State.loadAlu_y (s : State) (q : AluResult) : (s.loadAlu q).y = s.y := rfl
@[simp] theorem State.loadAlu_sp (s : State) (q : AluResult) : (s.loadAlu q).sp = s.sp := rfl
@[simp] theorem State.loadAlu_p (s : State) (q : AluResult) : (s.loadAlu q).p = setNVZC s.p q := rfl
@[simp] theorem State.loadAlu_pc (s : State) (q : AluResult) : (s.loadAlu q).pc = s.pc := rfl
@[simp] theorem State.loadAlu_ad (s : State) (q : AluResult) : (s.loadAlu q).ad = s.ad := rfl
@[simp] theorem State.loadAlu_ir (s : State) (q : AluResult) : (s.loadAlu q).ir = s.ir := rfl
@[simp] theorem State.loadAlu_brk (s : State) (q : AluResult) : (s.loadAlu q).brk = s.brk := rfl
@[simp] theorem State.loadAlu_intr (s : State) (q : AluResult) : (s.loadAlu q).intr = s.intr := rfl
@[simp] theorem State.loadAlu_addr (s : State) (q : AluResult) : (s.loadAlu q).addr = s.addr := rfl
@[simp] theorem State.loadAlu_dout (s : State) (q : AluResult) : (s.loadAlu q).dout = s.dout := rfl
@[simp] theorem State.loadAlu_rw (s : State) (q : AluResult) : (s.loadAlu q).rw = s.rw := rfl
@[simp] theorem State.loadAlu_sync (s : State) (q : AluResult) : (s.loadAlu q).sync = s.sync := rfl
@[simp] theorem State.loadAlu_mem (s : State) (q : AluResult) : (s.loadAlu q).mem = s.mem := rfl
@[simp] theorem State.loadAlu_lines (s : State) (q : AluResult) : (s.loadAlu q).lines = s.lines := rfl

@[simp] theorem State.compare_a (s : State) (r : Byte) (m : Byte) : (s.compare r m).a = s.a := rfl
@[simp] theorem State.compare_x (s : State) (r : Byte) (m : Byte) : (s.compare r m).x = s.x := rfl
@[simp] theorem State.compare_y (s : State) (r : Byte) (m : Byte) : (s.compare r m).y = s.y := rfl
@[simp] theorem State.compare_sp (s : State) (r : Byte) (m : Byte) : (s.compare r m).sp = s.sp := rfl
@[simp] theorem State.compare_p (s : State) (r : Byte) (m : Byte) : (s.compare r m).p = cmpStatus s.p r m := rfl
@[simp] theorem State.compare_pc (s : State) (r : Byte) (m : Byte) : (s.compare r m).pc = s.pc := rfl
@[simp] theorem State.compare_ad (s : State) (r : Byte) (m : Byte) : (s.compare r m).ad = s.ad := rfl
@[simp] theorem State.compare_ir (s : State) (r : Byte) (m : Byte) : (s.compare r m).ir = s.ir := rfl
@[simp] theorem State.compare_brk (s : State) (r : Byte) (m : Byte) : (s.compare r m).brk = s.brk := rfl
@[simp] theorem State.compare_intr (s : State) (r : Byte) (m : Byte) : (s.compare r m).intr = s.intr := rfl
@[simp] theorem State.compare_addr (s : State) (r : Byte) (m : Byte) : (s.compare r m).addr = s.addr := rfl
@[simp] theorem State.compare_dout (s : State) (r : Byte) (m : Byte) : (s.compare r m).dout = s.dout := rfl
@[simp] theorem State.compare_rw (s : State) (r : Byte) (m : Byte) : (s.compare r m).rw = s.rw := rfl
@[simp] theorem State.compare_sync (s : State) (r : Byte) (m : Byte) : (s.compare r m).sync = s.sync := rfl
@[simp] theorem State.compare_mem (s : State) (r : Byte) (m : Byte) : (s.compare r m).mem = s.mem := rfl
@[simp] theorem State.compare_lines (s : State) (r : Byte) (m : Byte) : (s.compare r m).lines = s.lines := rfl

@[simp] theorem State.shifted_a (s : State) (q : Byte × Bool) : (s.shifted q).a = s.a := rfl
@[simp] theorem State.shifted_x (s : State) (q : Byte × Bool) : (s.shifted q).x = s.x := rfl
@[simp] theorem State.shifted_y (s : State) (q : Byte × Bool) : (s.shifted q).y = s.y := rfl
@[simp] theorem State.shifted_sp (s : State) (q : Byte × Bool) : (s.shifted q).sp = s.sp := rfl
@[simp] theorem State.shifted_p (s : State) (q : Byte × Bool) : (s.shifted q).p = shiftStatus s.p q := rfl
@[simp] theorem State.shifted_pc (s : State) (q : Byte × Bool) : (s.shifted q).pc = s.pc := rfl
@[simp] theorem State.shifted_ad (s : State) (q : Byte × Bool) : (s.shifted q).ad = s.ad := rfl
@[simp] theorem State.shifted_ir (s : State) (q : Byte × Bool) : (s.shifted q).ir = s.ir := rfl
@[simp] theorem State.shifted_brk (s : State) (q : Byte × Bool) : (s.shifted q).brk = s.brk := rfl
@[simp] theorem State.shifted_intr (s : State) (q : Byte × Bool) : (s.shifted q).intr = s.intr := rfl
@[simp] theorem State.shifted_addr (s : State) (q : Byte × Bool) : (s.shifted q).addr = s.addr := rfl
@[simp] theorem State.shifted_dout (s : State) (q : Byte × Bool) : (s.shifted q).dout = s.dout := rfl
@[simp] theorem State.shifted_rw (s : State) (q : Byte × Bool) : (s.shifted q).rw = s.rw := rfl
@[simp] theorem State.shifted_sync (s : State) (q : Byte × Bool) : (s.shifted q).sync = s.sync := rfl
@[simp] theorem State.shifted_mem (s : State) (q : Byte × Bool) : (s.shifted q).mem = s.mem := rfl
@[simp] theorem State.shifted_lines (s : State) (q : Byte × Bool) : (s.shifted q).lines = s.lines := rfl

@[simp] theorem State.enterOpcode_a (s : State) (op : Byte) : (s.enterOpcode op).a = s.a := rfl
@[simp] theorem State.enterOpcode_x (s : State) (op : Byte) : (s.enterOpcode op).x = s.x := rfl
@[simp] theorem State.enterOpcode_y (s : State) (op : Byte) : (s.enterOpcode op).y = s.y := rfl
@[simp] theorem State.enterOpcode_sp (s : State) (op : Byte) : (s.enterOpcode op).sp = s.sp := rfl
@[simp] theorem State.enterOpcode_p (s : State) (op : Byte) : (s.enterOpcode op).p = s.p := rfl
@[simp] theorem State.enterOpcode_pc (s : State) (op : Byte) : (s.enterOpcode op).pc = s.pc + 1 := rfl
@[simp] theorem State.enterOpcode_ad (s : State) (op : Byte) : (s.enterOpcode op).ad = s.ad := rfl
@[simp] theorem State.enterOpcode_ir (s : State) (op : Byte) : (s.enterOpcode op).ir = op.setWidth 11 <<< 3 := rfl
@[simp] theorem State.enterOpcode_brk (s : State) (op : Byte) : (s.enterOpcode op).brk = s.brk := rfl
@[simp] theorem State.enterOpcode_intr (s : State) (op : Byte) : (s.enterOpcode op).intr = s.intr.keepYoungest := rfl
@[simp] theorem State.enterOpcode_addr (s : State) (op : Byte) : (s.enterOpcode op).addr = s.addr := rfl
@[simp] theorem State.enterOpcode_dout (s : State) (op : Byte) : (s.enterOpcode op).dout = s.dout := rfl
@[simp] theorem State.enterOpcode_rw (s : State) (op : Byte) : (s.enterOpcode op).rw = s.rw := rfl
@[simp] theorem State.enterOpcode_sync (s : State) (op : Byte) : (s.enterOpcode op).sync = false := rfl
@[simp] theorem State.enterOpcode_mem (s : State) (op : Byte) : (s.enterOpcode op).mem = s.mem := rfl
@[simp] theorem State.enterOpcode_lines (s : State) (op : Byte) : (s.enterOpcode op).lines = s.lines := rfl

end Sys2Proof.Machine
end

