-- ==== Sys2Proof/Laws/Memory.lean ====
section
/-!
SUPPORT. The laws of memory: reading what was written, leaving the rest alone, keeping the canonical form.
-/
namespace Sys2Proof.Machine

@[simp] theorem Memory.read_nil (k : Nat) : Memory.read [] k = Memory.blank k := rfl

theorem Memory.read_cons (j : Nat) (w : Byte) (m : Memory) (k : Nat) :
    Memory.read ((j, w) :: m) k = if j = k then w else Memory.read m k := rfl

/-- An address below every listed one reads as blank. -/
theorem Memory.read_below {m : Memory} {k : Nat} (h : ∀ c ∈ m, k < c.1) : m.read k = Memory.blank k := by
  induction m with
  | nil => rfl
  | cons c m ih =>
    obtain ⟨j, w⟩ := c
    have hj : k < j := h (j, w) (by simp)
    rw [Memory.read_cons, if_neg (by omega), ih fun c hc => h c (by simp [hc])]

/-- What a memory with a cell put before it reads as. -/
theorem Memory.read_cell {m : Memory} {j : Nat} {v : Byte} (h : ∀ c ∈ m, j < c.1) (k : Nat) :
    (Memory.cell j v m).read k = if j = k then v else m.read k := by
  unfold Memory.cell
  by_cases hv : v = Memory.blank j
  · rw [if_pos hv]
    by_cases hk : j = k
    · subst hk; rw [if_pos rfl, hv, Memory.read_below h]
    · rw [if_neg hk]
  · rw [if_neg hv, Memory.read_cons]

/-- The tail of a canonical memory is canonical, and lies above its head. -/
theorem Memory.wf_cons {j : Nat} {w : Byte} {m : Memory} :
    Memory.wf ((j, w) :: m) ↔ (∀ c ∈ m, j < c.1) ∧ j < 65536 ∧ w ≠ Memory.blank j ∧ Memory.wf m := by
  simp only [Memory.wf, List.pairwise_cons, List.forall_mem_cons]
  tauto

/-- Reading after a write: the byte written at its address, and what was there before everywhere else. -/
theorem Memory.read_write {m : Memory} (h : m.wf) (j : Nat) (v : Byte) (k : Nat) :
    (m.write j v).read k = if j = k then v else m.read k := by
  induction m with
  | nil => exact Memory.read_cell (by simp) k
  | cons c m ih =>
    obtain ⟨i, w⟩ := c
    obtain ⟨hlt, -, -, hm⟩ := Memory.wf_cons.mp h
    simp only [Memory.write]
    split
    · rename_i hji
      refine Memory.read_cell (fun c hc => ?_) k
      rcases List.mem_cons.mp hc with rfl | hc
      · exact hji
      · exact hji.trans (hlt c hc)
    · split
      · rename_i hji
        subst hji
        rw [Memory.read_cell hlt, Memory.read_cons]
        by_cases hk : j = k <;> simp [hk]
      · rename_i hne hji
        rw [Memory.read_cons, Memory.read_cons, ih hm]
        by_cases hk : i = k
        · subst hk; simp [hji]
        · simp [hk]

theorem Memory.read_write_same {m : Memory} (h : m.wf) (j : Nat) (v : Byte) : (m.write j v).read j = v := by
  rw [Memory.read_write h, if_pos rfl]

theorem Memory.read_write_other {m : Memory} (h : m.wf) {j k : Nat} (v : Byte) (hk : j ≠ k) :
    (m.write j v).read k = m.read k := by
  rw [Memory.read_write h, if_neg hk]

/-- Every cell of a written memory is the one written or was there before. -/
theorem Memory.mem_write {m : Memory} {j : Nat} {v : Byte} {c : Host.Cell} (hc : c ∈ m.write j v) :
    c ∈ m ∨ c = (j, v) ∧ v ≠ Memory.blank j := by
  have cell : ∀ m : Memory, c ∈ Memory.cell j v m → c ∈ m ∨ c = (j, v) ∧ v ≠ Memory.blank j := by
    intro m h
    unfold Memory.cell at h
    split at h
    · exact .inl h
    · rename_i hv
      rcases List.mem_cons.mp h with h | h
      · exact .inr ⟨h, hv⟩
      · exact .inl h
  induction m with
  | nil => exact cell [] hc
  | cons d m ih =>
    obtain ⟨i, w⟩ := d
    simp only [Memory.write] at hc
    split at hc
    · exact cell _ hc
    · split at hc
      · exact (cell m hc).imp_left (List.mem_cons_of_mem _)
      · rcases List.mem_cons.mp hc with h | h
        · exact .inl (by simp [h])
        · exact (ih h).imp_left (List.mem_cons_of_mem _)

/-- A write inside the address space keeps the canonical form. -/
theorem Memory.wf_write {m : Memory} (h : m.wf) {j : Nat} (hj : j < 65536) (v : Byte) : (m.write j v).wf := by
  have cell : ∀ m : Memory, m.wf → (∀ c ∈ m, j < c.1) → (Memory.cell j v m).wf := by
    intro m hm hlt
    unfold Memory.cell
    split
    · exact hm
    · rename_i hv
      exact Memory.wf_cons.mpr ⟨hlt, hj, hv, hm⟩
  induction m with
  | nil => exact cell [] h (by simp)
  | cons d m ih =>
    obtain ⟨i, w⟩ := d
    obtain ⟨hlt, hi, hw, hm⟩ := Memory.wf_cons.mp h
    simp only [Memory.write]
    split
    · rename_i hji
      refine cell _ h fun c hc => ?_
      rcases List.mem_cons.mp hc with rfl | hc
      · exact hji
      · exact hji.trans (hlt c hc)
    · split
      · rename_i hji
        exact cell m hm fun c hc => hji ▸ hlt c hc
      · rename_i hni hne
        refine Memory.wf_cons.mpr ⟨fun c hc => ?_, hi, hw, ih hm⟩
        rcases Memory.mem_write hc with hc | ⟨rfl, -⟩
        · exact hlt c hc
        · show i < j
          omega

/-- A write at the address of a bus cycle keeps the canonical form. -/
theorem Memory.wf_write_word {m : Memory} (h : m.wf) (k : Word) (v : Byte) : (m.write k.toNat v).wf :=
  Memory.wf_write h k.isLt v

/-- Two canonical memories that read alike are one memory. -/
theorem Memory.ext {m n : Memory} (hm : m.wf) (hn : n.wf) (h : ∀ k, m.read k = n.read k) : m = n := by
  induction m generalizing n with
  | nil =>
    cases n with
    | nil => rfl
    | cons d n =>
      obtain ⟨i, w⟩ := d
      obtain ⟨-, -, hw, -⟩ := Memory.wf_cons.mp hn
      exact absurd (by simpa [Memory.read_cons] using (h i).symm) hw
  | cons c m ih =>
    obtain ⟨j, v⟩ := c
    obtain ⟨hlt, -, hv, hm'⟩ := Memory.wf_cons.mp hm
    cases n with
    | nil => exact absurd (by simpa [Memory.read_cons] using h j) hv
    | cons d n =>
      obtain ⟨i, w⟩ := d
      obtain ⟨hlt', -, hw, hn'⟩ := Memory.wf_cons.mp hn
      have hji : j = i := by
        rcases Nat.lt_trichotomy j i with hlt1 | heq | hlt1
        · have := h j
          rw [Memory.read_cons, if_pos rfl, Memory.read_below (m := (i, w) :: n)] at this
          · exact absurd this hv
          · intro c hc
            rcases List.mem_cons.mp hc with rfl | hc
            · exact hlt1
            · exact hlt1.trans (hlt' c hc)
        · exact heq
        · have := h i
          rw [Memory.read_cons i, if_pos rfl, Memory.read_below (m := (j, v) :: m)] at this
          · exact absurd this.symm hw
          · intro c hc
            rcases List.mem_cons.mp hc with rfl | hc
            · exact hlt1
            · exact hlt1.trans (hlt c hc)
      subst hji
      have hvw : v = w := by simpa [Memory.read_cons] using h j
      subst hvw
      refine congrArg _ (ih hm' hn' fun k => ?_)
      by_cases hk : j = k
      · subst hk; rw [Memory.read_below hlt, Memory.read_below hlt']
      · simpa [Memory.read_cons, hk] using h k

/-- The later of two writes to one address is the one that counts. -/
theorem Memory.write_write {m : Memory} (h : m.wf) {j : Nat} (hj : j < 65536) (v w : Byte) :
    (m.write j v).write j w = m.write j w := by
  have hv := Memory.wf_write h hj v
  refine Memory.ext (Memory.wf_write hv hj w) (Memory.wf_write h hj w) fun k => ?_
  rw [Memory.read_write hv, Memory.read_write h, Memory.read_write h]
  by_cases hk : j = k <;> simp [hk]

/-- Writing the byte that is there changes nothing. -/
theorem Memory.write_read {m : Memory} (h : m.wf) {j : Nat} (hj : j < 65536) : m.write j (m.read j) = m := by
  refine Memory.ext (Memory.wf_write h hj _) h fun k => ?_
  rw [Memory.read_write h]
  by_cases hk : j = k <;> simp [hk]

end Sys2Proof.Machine
end

