-- ==== Sys2Proof/Laws/Tick.lean ====
section
/-!
SUPPORT. What the shared operations of a run can do. The lines and the stalls of a run touch nothing but the interrupt detection
state, the schedule of the lines and the data pins between ticks, so a run is that of the same ticks with no line asserted
(`quietRun`), but for those (`runReading_quiet`); and each addressing mode's quiet run comes to the addresses of 30_encoding.md R71.
-/
namespace Sys2Proof.Machine

/-! ### The environment of a state: interrupt detection and the schedule of the lines -/

/-- The state with another interrupt detection state and another schedule of the lines. -/
def State.withEnv (s : State) (n : Intr) (ls : List Lines) : State := { s with intr := n, lines := ls }

@[simp] theorem State.withEnv_arch (s : State) (n : Intr) (ls : List Lines) : (s.withEnv n ls).arch = s.arch := rfl

@[simp] theorem State.withEnv_withEnv (s : State) (m n : Intr) (ks ls : List Lines) :
    (s.withEnv m ks).withEnv n ls = s.withEnv n ls := rfl

theorem State.withEnv_self (s : State) : s.withEnv s.intr s.lines = s := rfl

theorem State.AtBoundary.withEnv {s : State} (h : s.AtBoundary) (n : Intr) (ls : List Lines) :
    (s.withEnv n ls).AtBoundary := h

/-- An action whose effect, but for the environment, does not depend on the environment or on RES. -/
def EnvBlind (act : Action) : Prop :=
  ∀ c s n ls, ∃ m, act c (s.withEnv n ls) = (act { c with res := false } s).withEnv m ls

/-- The stalls before a tick change the environment and, while the core reads, the data pins. -/
theorem awaitReady_eq (data : Option Byte) (ls : List Lines) (s : State) :
    ∃ n ks d, awaitReady State.stallTick data ls s = { s.withEnv n ks with dout := d } ∧ (s.rw = true → d = s.dout) := by
  induction ls generalizing s with
  | nil => exact ⟨s.intr, s.lines, s.dout, rfl, fun _ => rfl⟩
  | cons l ls ih =>
    rw [awaitReady]
    by_cases h : s.stalls l = true
    · rw [if_pos h]
      have hrw : s.rw = false := by
        have := h
        simp only [State.stalls, Bool.and_eq_true, Bool.not_eq_true'] at this
        exact this.1.2
      obtain ⟨n, ks, d, he, -⟩ := ih (s.stallTick (s.busInput data)).platform
      refine ⟨n, ks, d, ?_, fun h => by simp [hrw] at h⟩
      rw [he]
      simp [State.stallTick, State.platform, State.sampled, State.withEnv, hrw]
    · rw [if_neg h]
      exact ⟨s.intr, s.lines, s.dout, rfl, fun _ => rfl⟩

/-- The stalls before a tick in the JAM state change the environment and the address and data pins. -/
theorem awaitReady_jam (ls : List Lines) (s : State) :
    ∃ n ks j d, awaitReady State.jamStallTick none ls s = { s.withEnv n ks with addr := j, dout := d } := by
  induction ls generalizing s with
  | nil => exact ⟨s.intr, s.lines, s.addr, s.dout, rfl⟩
  | cons l ls ih =>
    rw [awaitReady]
    by_cases h : s.stalls l = true
    · rw [if_pos h]
      have hrw : s.rw = false := by
        have := h
        simp only [State.stalls, Bool.and_eq_true, Bool.not_eq_true'] at this
        exact this.1.2
      obtain ⟨n, ks, j, d, he⟩ := ih (s.jamStallTick (s.busInput none)).platform
      refine ⟨n, ks, j, d, ?_⟩
      rw [he]
      simp [State.jamStallTick, State.stallTick, State.platform, State.sampled, State.withEnv, hrw]
    · rw [if_neg h]
      exact ⟨s.intr, s.lines, s.addr, s.dout, rfl⟩

/-- The byte on the data bus in the coming tick. -/
def State.busByte (s : State) (data : Option Byte) : Byte := s.dbus (data.getD (s.readByte s.addr))

/-- A write cycle stores. -/
def State.commit (s : State) : State :=
  { s with mem := if s.rw then s.mem.write s.addr.toNat s.dout else s.mem }

/-- A tick with no line asserted, but for the environment. -/
def quietCycle (act : Action) (data : Option Byte) (s : State) : State :=
  (act { dbus := s.busByte data, res := false } { s with dout := s.busByte data }).commit

/-- A tick, with the stalls before it, does what it does when no line is asserted, but for the environment. -/
theorem cycle_quiet {act : Action} (h : EnvBlind act) (data : Option Byte) (s : State) (n : Intr) (ls : List Lines) :
    ∃ m ks, cycle act data (s.withEnv n ls) = (quietCycle act data s).withEnv m ks := by
  obtain ⟨m, ks, d, he, hd⟩ := awaitReady_eq data (s.withEnv n ls).lines (s.withEnv n ls)
  have hbus : ({ (s.withEnv n ls).withEnv m ks with dout := d } : State).dbus
      (data.getD (s.readByte s.addr)) = s.busByte data := by
    by_cases hrw : s.rw = true
    · have := hd hrw
      simp only [State.busByte, State.dbus, State.withEnv, hrw, if_true]
      exact this
    · simp [State.busByte, State.dbus, State.withEnv, hrw]
  have hstate : ∀ l, ({ (s.withEnv n ls).withEnv m ks with dout := d } : State).sampled
      { din := data.getD (s.readByte s.addr), lines := l } =
      ({ s with dout := s.busByte data } : State).withEnv (m.sample l (s.flag .i)) ks := by
    intro l
    simp only [State.sampled]
    rw [hbus]
    rfl
  obtain ⟨m', hm⟩ := h { dbus := s.busByte data, res := (ks.headD Lines.idle).res } { s with dout := s.busByte data }
    (m.sample (ks.headD Lines.idle) (s.flag .i)) ks
  refine ⟨m'.shift, ks.tail, ?_⟩
  simp only [cycle, cycleWith]
  rw [he]
  show (State.liveTick _ act { din := data.getD (s.readByte s.addr), lines := ks.headD Lines.idle }).platform = _
  simp only [State.liveTick]
  rw [hstate, hbus, hm]
  rfl

/-! ### Quiet runs -/

/-- `runTicks` with no line asserted, but for the environment. -/
def quietTicks (ticks : List Action) (operand : List (Option Byte)) : Nat → State → State
  | 0, s => s
  | n + 1, s =>
    if s.sync then s
    else quietTicks ticks operand n (quietCycle (microStep ticks) (operand[s.subCycle]?.getD none) s)

/-- `runFrom` with no line asserted, but for the environment. -/
def quietRun (enter : State → State) (opcode : Option Byte) (ticks : List Action) (operand : List (Option Byte)) (s : State) :
    State :=
  quietTicks ticks operand (ticks.length - 1) (quietCycle (fun c s => microStep ticks c (enter s)) opcode s)

theorem microStep_blind {ticks : List Action} (h : ∀ act ∈ ticks, EnvBlind act) : EnvBlind (microStep ticks) := by
  intro c s n ls
  show ∃ m, (match ticks[s.subCycle]? with
    | some act => act c (({ s with rw := false, ir := s.ir + 1 } : State).withEnv n ls)
    | none => ({ s with rw := false, ir := s.ir + 1 } : State).withEnv n ls) = _
  simp only [microStep]
  cases hk : ticks[s.subCycle]? with
  | none => exact ⟨n, rfl⟩
  | some act => exact h act (List.mem_of_getElem? hk) c _ n ls

/-- A run of sub-cycles is the quiet run, but for the environment. -/
theorem runTicks_quiet {ticks : List Action} (h : ∀ act ∈ ticks, EnvBlind act) (operand : List (Option Byte)) (k : Nat)
    (s : State) (n : Intr) (ls : List Lines) :
    ∃ m ks, runTicks ticks operand k (s.withEnv n ls) = (quietTicks ticks operand k s).withEnv m ks := by
  induction k generalizing s n ls with
  | zero => exact ⟨n, ls, rfl⟩
  | succ k ih =>
    simp only [runTicks, quietTicks]
    show ∃ m ks, (if s.sync then s.withEnv n ls else _) = _
    by_cases hs : s.sync = true
    · simp only [hs, if_true]
      exact ⟨n, ls, rfl⟩
    · simp only [hs, Bool.false_eq_true, if_false]
      obtain ⟨m, ks, hc⟩ := cycle_quiet (microStep_blind h) (operand[s.subCycle]?.getD none) s n ls
      show ∃ m ks, runTicks ticks operand k (cycle _ (operand[s.subCycle]?.getD none) _) = _
      rw [hc]
      exact ih _ m ks

/-- A run from a boundary is the quiet run, but for the environment. -/
theorem runFrom_quiet {ticks : List Action} (h : ∀ act ∈ ticks, EnvBlind act) {enter : State → State}
    (he : EnvBlind fun _ => enter) (opcode : Option Byte) (operand : List (Option Byte)) (s : State) :
    ∃ m ks, runFrom enter opcode ticks operand s = (quietRun enter opcode ticks operand s).withEnv m ks := by
  have hfirst : EnvBlind fun c s => microStep ticks c (enter s) := by
    intro c s n ls
    obtain ⟨m, hm⟩ := he c s n ls
    show ∃ m, microStep ticks c (enter (s.withEnv n ls)) = _
    rw [show enter (s.withEnv n ls) = (enter s).withEnv m ls from hm]
    exact microStep_blind h c (enter s) m ls
  obtain ⟨m, ks, hc⟩ := cycle_quiet hfirst opcode s s.intr s.lines
  simp only [runFrom, quietRun]
  rw [show cycle _ opcode s = _ from hc]
  exact runTicks_quiet h operand _ _ m ks

theorem enterOpcode_blind (op : Byte) : EnvBlind fun _ s => s.enterOpcode op := fun _ _ n _ => ⟨n.keepYoungest, rfl⟩

/-- The quiet run of an instruction from its boundary. -/
def quietInstr (i : Instr) (ticks : List Action) (operand : List (Option Byte)) (s : State) : State :=
  quietRun (fun s => s.enterOpcode i.opcode) (some i.opcode) ticks operand s

/-- An instruction completes with what its quiet run comes to. -/
theorem completes_of_quiet {i : Instr} {ticks : List Action} {operand : List (Option Byte)} {s : State} {r : Arch}
    (hx : exec i s = runReading i ticks operand s) (hb : ∀ act ∈ ticks, EnvBlind act)
    (ha : (quietInstr i ticks operand s).arch = r) (ht : (quietInstr i ticks operand s).AtBoundary) : Completes i s r := by
  obtain ⟨m, ks, he⟩ := runFrom_quiet hb (enterOpcode_blind i.opcode) (some i.opcode) operand s
  exact ⟨(quietInstr i ticks operand s).withEnv m ks, by rw [hx, runReading, he]; rfl, ha, ht⟩

end Sys2Proof.Machine
end

