-- ==== Sys2Proof/Laws/Modes.lean ====
section
/-!
SUPPORT. What the addressing ticks of each mode come to in a quiet run: the address of 30_encoding.md R71, PC past the operand, no
register written but PC and AD.
-/
namespace Sys2Proof.Machine

/-! ### IR through a run -/

/-- IR at a sub-cycle of an opcode. -/
def irAt (op : Byte) (k : Nat) : BitVec 11 := (op.setWidth 11 <<< 3) + BitVec.ofNat 11 k

theorem irAt_succ (op : Byte) (k : Nat) : irAt op k + 1 = irAt op (k + 1) := by
  unfold irAt
  rw [BitVec.add_assoc]
  congr 1
  apply BitVec.eq_of_toNat_eq
  simp [BitVec.toNat_add, BitVec.toNat_ofNat]

theorem irAt_zero (op : Byte) : op.setWidth 11 <<< 3 = irAt op 0 := by simp [irAt]

theorem irAt_and (op : Byte) {k : Nat} (hk : k < 8) : (irAt op k &&& 7).toNat = k := by
  have : (7 : BitVec 11).toNat = 2^3 - 1 := rfl
  rw [BitVec.toNat_and, this, Nat.and_two_pow_sub_one_eq_mod, irAt]
  simp only [BitVec.toNat_add, BitVec.toNat_shiftLeft, Nat.shiftLeft_eq, BitVec.toNat_setWidth, BitVec.toNat_ofNat]
  omega

/-! ### One sub-cycle of a quiet run -/

/-- The sub-cycle `k` of an opcode, in which this action runs with no line asserted. -/
def quietStep (act : Action) (op : Byte) (k : Nat) (data : Option Byte) (s : State) : State :=
  (act { dbus := s.busByte data, res := false } { s with dout := s.busByte data, rw := false, ir := irAt op (k + 1) }).commit

theorem quietTicks_step {ticks : List Action} {operand : List (Option Byte)} {n k : Nat} {s : State} {act : Action} {op : Byte}
    (hs : s.sync = false) (hi : s.ir = irAt op k) (hk : k < 8) (ha : ticks[k]? = some act) :
    quietTicks ticks operand (n + 1) s = quietTicks ticks operand n (quietStep act op k (operand[k]?.getD none) s) := by
  have hsub : s.subCycle = k := by rw [State.subCycle, hi]; exact irAt_and op hk
  have hm : ∀ c d, microStep ticks c { s with dout := d } = act c { s with dout := d, rw := false, ir := irAt op (k + 1) } := by
    intro c d
    have hsub' : ({s with dout := d} : State).subCycle = k := hsub
    show (match ticks[({s with dout := d} : State).subCycle]? with
      | some act => act c { s with dout := d, rw := false, ir := s.ir + 1 }
      | none => { s with dout := d, rw := false, ir := s.ir + 1 }) = _
    rw [hsub', ha, hi, irAt_succ]
  rw [quietTicks, if_neg (by simp [hs]), hsub, quietCycle, hm]
  rfl

theorem quietTicks_done {ticks : List Action} {operand : List (Option Byte)} {n : Nat} {s : State}
    (hs : s.sync = true) : quietTicks ticks operand n s = s := by
  cases n <;> simp [quietTicks, hs]

/-- The state before a sub-cycle of a run that has written no register but PC and AD. -/
def State.during (s : State) (op : Byte) (k : Nat) (pc ad addr : Word) (d : Byte) : State :=
  { s with pc := pc, ad := ad, ir := irAt op k, intr := s.intr.keepYoungest, addr := addr, dout := d, rw := false, sync := false }

theorem quietInstr_start {i : Instr} {t : Action} {ts : List Action} {operand : List (Option Byte)} {s : State}
    (hs : s.rw = false) :
    quietInstr i (t :: ts) operand s = quietTicks (t :: ts) operand ts.length
      (t { dbus := i.opcode, res := false } (s.during i.opcode 1 (s.pc + 1) s.ad s.addr i.opcode)).commit := by
  have h0 : ∀ s : State, (s.enterOpcode i.opcode).subCycle = 0 := fun s => by
    show ((i.opcode.setWidth 11 <<< 3) &&& 7).toNat = 0
    rw [irAt_zero]; exact irAt_and _ (by omega)
  have h1 : ∀ s : State, (s.enterOpcode i.opcode).ir + 1 = irAt i.opcode 1 := fun s => by
    show ((i.opcode.setWidth 11 <<< 3) + 1) = _
    rw [irAt_zero]; exact irAt_succ _ _
  have hb : s.busByte (some i.opcode) = i.opcode := by simp [State.busByte, State.dbus, hs]
  simp only [quietInstr, quietRun, quietCycle, microStep, h0, h1, hb, List.getElem?_cons_zero, List.length_cons,
    Nat.add_sub_cancel]
  rfl

theorem quietTicks_during {ticks : List Action} {operand : List (Option Byte)} {n k : Nat} {s : State} {op : Byte}
    {pc ad addr : Word} {d : Byte} {act : Action} (hk : k < 8) (ha : ticks[k]? = some act) :
    quietTicks ticks operand (n + 1) (s.during op k pc ad addr d) =
      quietTicks ticks operand n
        (act { dbus := (operand[k]?.getD none).getD (s.readByte addr), res := false }
          (s.during op (k + 1) pc ad addr ((operand[k]?.getD none).getD (s.readByte addr)))).commit :=
  quietTicks_step rfl rfl hk ha

section
variable (s : State) (op : Byte) (k : Nat) (pc ad addr : Word) (d : Byte) (c : Seen)

theorem operandTick_during : (operandTick c (s.during op k pc ad addr d)).commit = s.during op k (pc + 1) ad pc d := rfl
theorem secondOperandTick_during : (secondOperandTick c (s.during op k pc ad addr d)).commit =
    s.during op k (pc + 1) (zext16 c.dbus) pc d := rfl
theorem zeroPageTick_during : (zeroPageTick c (s.during op k pc ad addr d)).commit =
    s.during op k pc (zext16 c.dbus) (zext16 c.dbus) d := rfl
theorem pointerHighTick_during : (pointerHighTick c (s.during op k pc ad addr d)).commit =
    s.during op k pc (zext16 c.dbus) (zeroPageAdd ad 1) d := rfl
theorem assembleTick_during : assembleTick c (s.during op k pc ad addr d) =
    s.during op k pc ad (highOver c.dbus ad) d := rfl
theorem carryTick_during (index : State → Byte) : carryTick index c (s.during op k pc ad addr d) =
    s.during op k pc ad (ad + zext16 (index (s.during op k pc ad addr d))) d := rfl

end

/-! ### The modes -/

/-- The addressing ticks of a mode come to this address, PC past the operand; `act` follows in the last of them. -/
def Addresses (m : Mode) (k : Access) (i : Instr) (operand : List (Option Byte)) (len ea base : Word) (s : State) : Prop :=
  ∀ (act : Action) (rest : List Action), ∃ d,
    quietInstr i (appendLast act (addressing m k) ++ rest) operand s =
      quietTicks (appendLast act (addressing m k) ++ rest) operand rest.length
        (act { dbus := d, res := false } (s.during i.opcode (addressing m k).length (s.pc + len) base ea d)).commit

/-- A read instruction of this mode performs its operation on the byte at this address, PC past the operand. -/
def Reads (m : Mode) (i : Instr) (operand : List (Option Byte)) (len ea : Word) (s : State) : Prop :=
  ∀ op : Action, ∃ n base, quietInstr i (readTicks m op) operand s =
    ((op { dbus := s.readByte ea, res := false }
      (s.during i.opcode n (s.pc + len) base ea (s.readByte ea))).fetch).commit

theorem addresses_zp {i : Instr} {s : State} (hb : s.AtBoundary) (z : Byte) (k : Access) :
    Addresses .zp k i [none, some z] 2 (addrZp z s) s.ad s := by
  intro act rest
  refine ⟨z, ?_⟩
  simp only [addressing, appendLast, List.cons_append, List.nil_append]
  rw [quietInstr_start hb.2.1, List.length_cons, operandTick_during, quietTicks_during (by decide) rfl, ← pc_two]
  rfl

theorem addresses_zpx {i : Instr} {s : State} (hb : s.AtBoundary) (z : Byte) (k : Access) :
    Addresses .zpx k i [none, some z] 2 (addrZpx z s) (zext16 z) s := by
  intro act rest
  refine ⟨s.readByte (zext16 z), ?_⟩
  simp only [addressing, appendLast, List.cons_append, List.nil_append]
  rw [quietInstr_start hb.2.1, List.length_cons, List.length_cons, operandTick_during, quietTicks_during (by decide) rfl,
    zeroPageTick_during, quietTicks_during (by decide) rfl, addrZpx, ← zeroPageAdd_zext, ← pc_two]
  rfl

theorem addresses_zpy {i : Instr} {s : State} (hb : s.AtBoundary) (z : Byte) (k : Access) :
    Addresses .zpy k i [none, some z] 2 (addrZpy z s) (zext16 z) s := by
  intro act rest
  refine ⟨s.readByte (zext16 z), ?_⟩
  simp only [addressing, appendLast, List.cons_append, List.nil_append]
  rw [quietInstr_start hb.2.1, List.length_cons, List.length_cons, operandTick_during, quietTicks_during (by decide) rfl,
    zeroPageTick_during, quietTicks_during (by decide) rfl, addrZpy, ← zeroPageAdd_zext, ← pc_two]
  rfl


theorem addresses_abs {i : Instr} {s : State} (hb : s.AtBoundary) (a : Word) (k : Access) :
    Addresses .abs k i [none, some (lo a), some (hi a)] 3 (addrAbs a s) (zext16 (lo a)) s := by
  intro act rest
  refine ⟨hi a, ?_⟩
  have h : addrAbs a s = highOver (hi a) (zext16 (lo a)) := (mkWord_hi_lo a).symm
  simp only [addressing, appendLast, List.cons_append, List.nil_append]
  rw [quietInstr_start hb.2.1, List.length_cons, List.length_cons, operandTick_during, quietTicks_during (by decide) rfl,
    secondOperandTick_during, quietTicks_during (by decide) rfl, pc_two s.pc, pc_three, h]
  rfl

theorem pointerLowTick_during (s : State) (op : Byte) (k : Nat) (pc addr : Word) (z d : Byte) (c : Seen) :
    (pointerLowTick c (s.during op k pc (zext16 z) addr d)).commit = s.during op k pc (zext16 (z + s.x)) (zext16 (z + s.x)) d := by
  rw [← zeroPageAdd_zext]
  rfl

theorem addresses_idx {i : Instr} {s : State} (hb : s.AtBoundary) (z : Byte) (k : Access) :
    Addresses .idx k i [none, some z] 2 (addrIdx z s) (zext16 (s.readByte (zext16 (z + s.x)))) s := by
  intro act rest
  refine ⟨s.readByte (zext16 (z + s.x + 1)), ?_⟩
  simp only [addressing, appendLast, List.cons_append, List.nil_append]
  rw [quietInstr_start hb.2.1, List.length_cons, List.length_cons, List.length_cons, List.length_cons, operandTick_during,
    quietTicks_during (by decide) rfl, zeroPageTick_during, quietTicks_during (by decide) rfl]
  show quietTicks _ _ _ (pointerLowTick _ (s.during i.opcode 3 _ (zext16 z) _ _)).commit = _
  rw [pointerLowTick_during, quietTicks_during (by decide) rfl, pointerHighTick_during, quietTicks_during (by decide) rfl, pc_two,
    zeroPageAdd_zext]
  rfl

theorem indexTick_during {index : State → Byte} (hi : index = State.x ∨ index = State.y) (s : State) (op : Byte) (n : Nat)
    (k : Access) (c : Seen) (pc ad addr : Word) (d : Byte)
    (h : k = .read → crossesPage (ad ||| (zext16 c.dbus <<< 8)) (index s) = true) :
    (indexTick index k c (s.during op n pc ad addr d)).commit =
      s.during op n pc (ad ||| (zext16 c.dbus <<< 8)) (pageAdd (ad ||| (zext16 c.dbus <<< 8)) (index s)) d := by
  rcases hi with rfl | rfl <;> exact congrArg State.commit (if_neg fun hc => hc.2 (h hc.1))

theorem indexTick_skips {index : State → Byte} (hi : index = State.x ∨ index = State.y) (s : State) (op : Byte) (n : Nat)
    (c : Seen) (pc ad addr : Word) (d : Byte)
    (h : crossesPage (ad ||| (zext16 c.dbus <<< 8)) (index s) = false) :
    (indexTick index .read c (s.during op n pc ad addr d)).commit =
      s.during op (n + 1) pc (ad ||| (zext16 c.dbus <<< 8)) (pageAdd (ad ||| (zext16 c.dbus <<< 8)) (index s)) d := by
  rw [State.during.eq_def (k := n + 1), ← irAt_succ]
  rcases hi with rfl | rfl <;> exact congrArg State.commit (if_pos ⟨rfl, by exact (Bool.eq_false_iff.mp h)⟩)


theorem addresses_abx {i : Instr} {s : State} (hb : s.AtBoundary) (a : Word) {k : Access} (hk : k ≠ .read) :
    Addresses .abx k i [none, some (lo a), some (hi a)] 3 (addrAbx a s) a s := by
  intro act rest
  refine ⟨s.readByte (pageAdd a s.x), ?_⟩
  have h : zext16 (lo a) ||| (zext16 (hi a) <<< 8) = a := by rw [lowHigh, mkWord_hi_lo]
  simp only [addressing, appendLast, List.cons_append, List.nil_append]
  rw [quietInstr_start hb.2.1, List.length_cons, List.length_cons, List.length_cons, operandTick_during, quietTicks_during (by decide) rfl,
    secondOperandTick_during, quietTicks_during (by decide) rfl, indexTick_during (.inl rfl) _ _ _ _ _ _ _ _ _ (fun h => absurd h hk), pc_two s.pc, pc_three]
  show quietTicks _ _ _ (s.during _ _ _ (zext16 (lo a) ||| (zext16 (hi a) <<< 8)) (pageAdd (zext16 (lo a) ||| (zext16 (hi a) <<< 8)) s.x) _) = _
  rw [h, quietTicks_during (by decide) rfl]
  rfl

theorem addresses_aby {i : Instr} {s : State} (hb : s.AtBoundary) (a : Word) {k : Access} (hk : k ≠ .read) :
    Addresses .aby k i [none, some (lo a), some (hi a)] 3 (addrAby a s) a s := by
  intro act rest
  refine ⟨s.readByte (pageAdd a s.y), ?_⟩
  have h : zext16 (lo a) ||| (zext16 (hi a) <<< 8) = a := by rw [lowHigh, mkWord_hi_lo]
  simp only [addressing, appendLast, List.cons_append, List.nil_append]
  rw [quietInstr_start hb.2.1, List.length_cons, List.length_cons, List.length_cons, operandTick_during, quietTicks_during (by decide) rfl,
    secondOperandTick_during, quietTicks_during (by decide) rfl, indexTick_during (.inr rfl) _ _ _ _ _ _ _ _ _ (fun h => absurd h hk), pc_two s.pc, pc_three]
  show quietTicks _ _ _ (s.during _ _ _ (zext16 (lo a) ||| (zext16 (hi a) <<< 8)) (pageAdd (zext16 (lo a) ||| (zext16 (hi a) <<< 8)) s.y) _) = _
  rw [h, quietTicks_during (by decide) rfl]
  rfl

theorem addresses_idy {i : Instr} {s : State} (hb : s.AtBoundary) (z : Byte) {k : Access} (hk : k ≠ .read) :
    Addresses .idy k i [none, some z] 2 (addrIdy z s) (zeroPagePointer z s) s := by
  intro act rest
  refine ⟨s.readByte (pageAdd (zeroPagePointer z s) s.y), ?_⟩
  simp only [addressing, appendLast, List.cons_append, List.nil_append]
  rw [quietInstr_start hb.2.1, List.length_cons, List.length_cons, List.length_cons, List.length_cons, operandTick_during, quietTicks_during (by decide) rfl,
    zeroPageTick_during, quietTicks_during (by decide) rfl, pointerHighTick_during, quietTicks_during (by decide) rfl,
    indexTick_during (.inr rfl) _ _ _ _ _ _ _ _ _ (fun h => absurd h hk), pc_two, lowHigh]
  show quietTicks _ _ _ (s.during _ _ _ (mkWord (s.readByte (zeroPageAdd (zext16 z) 1)) (s.readByte (zext16 z))) (pageAdd (mkWord (s.readByte (zeroPageAdd (zext16 z) 1)) (s.readByte (zext16 z))) s.y) _) = _
  rw [zeroPageAdd_zext]
  rw [quietTicks_during (by decide) rfl]
  rfl


/-- A mode without indexing reads as it addresses. -/
theorem reads_of_addresses {m : Mode} {i : Instr} {operand : List (Option Byte)} {len ea base : Word} {s : State}
    (hn : (addressing m .read).length < 8) (ho : operand.length ≤ (addressing m .read).length)
    (h : Addresses m .read i operand len ea base s) : Reads m i operand len ea s := by
  intro op
  obtain ⟨d, hd⟩ := h (fun _ s => s) [fun c s => (op c s).fetch]
  refine ⟨(addressing m .read).length + 1, base, ?_⟩
  have happ : ∀ l : List Action, appendLast (fun _ s => s) l = l := by
    intro l
    induction l with
    | nil => rfl
    | cons t l ih => cases l with
      | nil => rfl
      | cons u l => rw [appendLast, ih]
  have hc : ((s.during i.opcode (addressing m .read).length (s.pc + len) base ea d)).commit =
      (s.during i.opcode (addressing m .read).length (s.pc + len) base ea d) := rfl
  rw [happ] at hd
  rw [readTicks, hd, hc]
  show quietTicks _ _ (0 + 1) _ = _
  rw [quietTicks_during (act := fun c s => (op c s).fetch) hn (by simp), quietTicks]
  have : (operand[(addressing m .read).length]?.getD none) = none := by
    rw [List.getElem?_eq_none ho]; rfl
  rw [this]
  rfl

/-- The index tick of a read and what follows it: the operation on the byte at the carried address. -/
theorem quietTicks_index {ticks : List Action} {operand : List (Option Byte)} {index : State → Byte} {op : Action} {k : Nat}
    (hi : index = State.x ∨ index = State.y) (s : State) (opcode : Byte) (pc ad addr base : Word) (d : Byte)
    (hk : k + 2 < 8) (ho : operand.length ≤ k + 1) (h0 : ticks[k]? = some (indexTick index .read))
    (h1 : ticks[k + 1]? = some (carryTick index)) (h2 : ticks[k + 2]? = some fun c s => (op c s).fetch)
    (hb : ad ||| (zext16 ((operand[k]?.getD none).getD (s.readByte addr)) <<< 8) = base) :
    ∃ n, quietTicks ticks operand 3 (s.during opcode k pc ad addr d) =
      ((op { dbus := s.readByte (base + zext16 (index s)), res := false }
        (s.during opcode n pc base (base + zext16 (index s)) (s.readByte (base + zext16 (index s))))).fetch).commit := by
  have hn1 : operand[k + 1]?.getD none = none := by rw [List.getElem?_eq_none ho]; rfl
  have hn2 : operand[k + 2]?.getD none = none := by rw [List.getElem?_eq_none (by omega)]; rfl
  refine ⟨k + 3, ?_⟩
  rw [quietTicks_during (by omega) h0]
  by_cases hc : crossesPage base (index s) = true
  · rw [indexTick_during hi _ _ _ _ _ _ _ _ _ (fun _ => by rw [hb]; exact hc), hb, quietTicks_during (by omega) h1, hn1,
      quietTicks_step (k := k + 2) (op := opcode) rfl rfl hk h2, hn2]
    rcases hi with rfl | rfl <;> rfl
  · rw [Bool.not_eq_true] at hc
    rw [indexTick_skips hi _ _ _ _ _ _ _ _ (by rw [hb]; exact hc), hb, pageAdd_of_not_crosses hc, quietTicks_during hk h2, hn2]
    exact quietTicks_done rfl

theorem reads_abx {i : Instr} {s : State} (hb : s.AtBoundary) (a : Word) :
    Reads .abx i [none, some (lo a), some (hi a)] 3 (addrAbx a s) s := by
  intro op
  simp only [readTicks, addressing, List.cons_append, List.nil_append]
  rw [quietInstr_start hb.2.1, List.length_cons, List.length_cons, List.length_cons, List.length_cons, operandTick_during,
    quietTicks_during (by decide) rfl, secondOperandTick_during, pc_two s.pc, pc_three]
  obtain ⟨n, hn⟩ := quietTicks_index (ticks := operandTick :: secondOperandTick :: indexTick State.x .read :: carryTick State.x ::
      [fun c s => (op c s).fetch]) (operand := [none, some (lo a), some (hi a)]) (k := 2) (.inl rfl) s i.opcode (s.pc + 3)
    (zext16 (lo a)) (s.pc + 2) a (lo a) (by decide) (by simp) rfl rfl rfl (by exact (lowHigh _ _).trans (mkWord_hi_lo a))
  exact ⟨n, a, hn⟩

theorem reads_aby {i : Instr} {s : State} (hb : s.AtBoundary) (a : Word) :
    Reads .aby i [none, some (lo a), some (hi a)] 3 (addrAby a s) s := by
  intro op
  simp only [readTicks, addressing, List.cons_append, List.nil_append]
  rw [quietInstr_start hb.2.1, List.length_cons, List.length_cons, List.length_cons, List.length_cons, operandTick_during,
    quietTicks_during (by decide) rfl, secondOperandTick_during, pc_two s.pc, pc_three]
  obtain ⟨n, hn⟩ := quietTicks_index (ticks := operandTick :: secondOperandTick :: indexTick State.y .read :: carryTick State.y ::
      [fun c s => (op c s).fetch]) (operand := [none, some (lo a), some (hi a)]) (k := 2) (.inr rfl) s i.opcode (s.pc + 3)
    (zext16 (lo a)) (s.pc + 2) a (lo a) (by decide) (by simp) rfl rfl rfl (by exact (lowHigh _ _).trans (mkWord_hi_lo a))
  exact ⟨n, a, hn⟩

theorem reads_idy {i : Instr} {s : State} (hb : s.AtBoundary) (z : Byte) :
    Reads .idy i [none, some z] 2 (addrIdy z s) s := by
  intro op
  simp only [readTicks, addressing, List.cons_append, List.nil_append]
  rw [quietInstr_start hb.2.1, List.length_cons, List.length_cons, List.length_cons, List.length_cons, List.length_cons, operandTick_during,
    quietTicks_during (by decide) rfl, zeroPageTick_during, quietTicks_during (by decide) rfl, pointerHighTick_during, pc_two]
  obtain ⟨n, hn⟩ := quietTicks_index (ticks := operandTick :: zeroPageTick :: pointerHighTick :: indexTick State.y .read :: carryTick State.y ::
      [fun c s => (op c s).fetch]) (operand := [none, some z]) (k := 3) (.inr rfl) s i.opcode (s.pc + 2)
    (zext16 (s.readByte (zext16 z))) (zeroPageAdd (zext16 z) 1) (zeroPagePointer z s) (s.readByte (zext16 z)) (by decide) (by simp) rfl rfl rfl (by rw [zeroPageAdd_zext]; exact (lowHigh _ _))
  exact ⟨n, zeroPagePointer z s, hn⟩

theorem reads_imm {i : Instr} {s : State} (hb : s.AtBoundary) (v : Byte) (op : Action) :
    ∃ n ad addr, quietInstr i (readTicks .imm op) [none, some v] s =
      ((op { dbus := v, res := false } (s.during i.opcode n (s.pc + 2) ad addr v)).fetch).commit := by
  simp only [readTicks, addressing, List.cons_append, List.nil_append]
  rw [quietInstr_start hb.2.1, List.length_cons, operandTick_during, quietTicks_during (by decide) rfl, pc_two]
  exact ⟨_, _, _, rfl⟩

theorem implied_runs {i : Instr} {s : State} (hb : s.AtBoundary) (op : State → State) :
    ∃ n ad addr d, quietInstr i (impliedTicks op) [none] s =
      ((op (s.during i.opcode n (s.pc + 1) ad addr d)).fetch).commit := by
  refine ⟨2, s.ad, s.pc + 1, s.readByte (s.pc + 1), ?_⟩
  simp only [impliedTicks, addressing, List.cons_append, List.nil_append]
  rw [quietInstr_start hb.2.1, List.length_cons]
  show quietTicks _ _ 1 (s.during i.opcode 1 (s.pc + 1) s.ad (s.pc + 1) i.opcode) = _
  rw [quietTicks_during (by decide) rfl]
  rfl


end Sys2Proof.Machine
end

