-- ==== Sys2Proof/Laws/Operations.lean ====
section
/-!
SUPPORT. What the operation of each instruction does to the programmer-visible state, and how an instruction completes: the address
its mode comes to (Modes.lean), then its operation.
-/
namespace Sys2Proof.Machine

/-! ### No action of a mode depends on the environment -/

theorem blind_fetched {op : Action} (h : EnvBlind op) : EnvBlind fun c s => (op c s).fetch := by
  intro c s n ls
  obtain ⟨m, hm⟩ := h c s n ls
  exact ⟨m, by show (op c (s.withEnv n ls)).fetch = _; rw [hm]; rfl⟩

theorem blind_indexTick {index : State → Byte} (hi : index = State.x ∨ index = State.y) (k : Access) :
    EnvBlind (indexTick index k) := by
  intro c s n ls
  refine ⟨n, ?_⟩
  rcases hi with rfl | rfl
  · by_cases hc : k = .read ∧ ¬ crossesPage (s.ad ||| (zext16 c.dbus <<< 8)) s.x = true
    · simp only [indexTick, State.withEnv, if_pos hc]
      exact if_pos hc
    · simp only [indexTick, State.withEnv, if_neg hc]
      exact if_neg hc
  · by_cases hc : k = .read ∧ ¬ crossesPage (s.ad ||| (zext16 c.dbus <<< 8)) s.y = true
    · simp only [indexTick, State.withEnv, if_pos hc]
      exact if_pos hc
    · simp only [indexTick, State.withEnv, if_neg hc]
      exact if_neg hc

theorem blind_addressing (m : Mode) (k : Access) : ∀ act ∈ addressing m k, EnvBlind act := by
  have hx := blind_indexTick (.inl rfl) k
  have hy := blind_indexTick (.inr rfl) k
  cases m <;> simp only [addressing, List.forall_mem_cons, List.not_mem_nil, false_implies, implies_true, and_true, hx, hy,
    true_and] <;> (repeat' apply And.intro) <;> exact fun _ _ n _ => ⟨n, rfl⟩

theorem length_appendLast (act : Action) (l : List Action) : (appendLast act l).length = l.length := by
  induction l with
  | nil => rfl
  | cons t l ih => cases l with
    | nil => rfl
    | cons u l => simp only [appendLast, List.length_cons] at ih ⊢; omega

theorem appendLast_id (l : List Action) : appendLast (fun _ s => s) l = l := by
  induction l with
  | nil => rfl
  | cons t l ih => cases l with
    | nil => rfl
    | cons u l => rw [appendLast, ih]

theorem blind_fetchTick : EnvBlind fetchTick := fun _ _ n _ => ⟨n, rfl⟩

theorem blind_appendLast {act : Action} (ha : EnvBlind act) {l : List Action} (h : ∀ t ∈ l, EnvBlind t) :
    ∀ t ∈ appendLast act l, EnvBlind t := by
  induction l with
  | nil => simp [appendLast]
  | cons t l ih =>
    cases l with
    | nil =>
      simp only [appendLast, List.mem_singleton, forall_eq]
      intro c s n ls
      obtain ⟨m, hm⟩ := h t (by simp) c s n ls
      obtain ⟨m', hm'⟩ := ha c (t { c with res := false } s) m ls
      exact ⟨m', by show act c (t c (s.withEnv n ls)) = _; rw [hm, hm']⟩
    | cons u l =>
      simp only [appendLast, List.forall_mem_cons] at h ⊢
      exact ⟨h.1, ih (by simpa using h.2)⟩

/-! ### Reading instructions -/

/-- An operation on a byte has this effect on the programmer-visible state, and none on the pins or a sequence under way. -/
structure ActsAs (op : Action) (effect : Byte → Arch → Arch) : Prop where
  blind : EnvBlind op
  arch : ∀ v s, (op { dbus := v, res := false } s).arch = effect v s.arch
  rw : ∀ c s, (op c s).rw = s.rw
  brk : ∀ c s, (op c s).brk = s.brk

theorem fetch_commit_arch {s : State} (h : s.rw = false) : (s.fetch.commit).arch = s.arch := by
  simp [State.commit, State.arch, State.fetch, h]

theorem fetch_commit_boundary {s : State} (h : s.rw = false) (hb : s.brk = BrkFlags.empty) : (s.fetch.commit).AtBoundary :=
  ⟨rfl, h, rfl, hb⟩

/-- A read form completes with the effect of its operation on the byte at its address. -/
theorem completes_read {i : Instr} {m : Mode} {op : Action} {effect : Byte → Arch → Arch} {operand : List (Option Byte)}
    {len ea : Word} {s : State} (hx : exec i s = runReading i (readTicks m op) operand s) (ha : ActsAs op effect)
    (hb : s.AtBoundary) (hr : Reads m i operand len ea s) : Completes i s (effect (s.readByte ea) (s.arch.skip len)) := by
  obtain ⟨n, base, hq⟩ := hr op
  refine completes_of_quiet hx ?_ ?_ ?_
  · exact List.forall_mem_append.mpr ⟨blind_addressing m .read, by simpa using blind_fetched ha.blind⟩
  · rw [hq, fetch_commit_arch (by rw [ha.rw]; rfl), ha.arch]
    rfl
  · rw [hq]
    exact fetch_commit_boundary (by rw [ha.rw]; rfl) (by rw [ha.brk]; exact hb.2.2.2)

/-- An immediate form completes with the effect of its operation on its operand. -/
theorem completes_immediate {i : Instr} {op : Action} {effect : Byte → Arch → Arch} {v : Byte} {s : State}
    (hx : exec i s = runReading i (readTicks .imm op) [none, some v] s) (ha : ActsAs op effect) (hb : s.AtBoundary) :
    Completes i s (effect v (s.arch.skip 2)) := by
  obtain ⟨n, ad, addr, hq⟩ := reads_imm (i := i) hb v op
  refine completes_of_quiet hx ?_ ?_ ?_
  · exact List.forall_mem_append.mpr ⟨blind_addressing .imm .read, by simpa using blind_fetched ha.blind⟩
  · rw [hq, fetch_commit_arch (by rw [ha.rw]; rfl), ha.arch]
    rfl
  · rw [hq]
    exact fetch_commit_boundary (by rw [ha.rw]; rfl) (by rw [ha.brk]; exact hb.2.2.2)

/-- An instruction without an operand completes with the effect of its operation. -/
theorem completes_implied {i : Instr} {op : State → State} {effect : Arch → Arch} {s : State}
    (hx : exec i s = runReading i (impliedTicks op) [none] s) (ha : ActsAs (fun _ => op) fun _ => effect) (hb : s.AtBoundary) :
    Completes i s (effect (s.arch.skip 1)) := by
  obtain ⟨n, ad, addr, d, hq⟩ := implied_runs (i := i) hb op
  have hrw : (op (s.during i.opcode n (s.pc + 1) ad addr d)).rw = false := ha.rw ⟨0, false⟩ _
  refine completes_of_quiet hx ?_ ?_ ?_
  · exact List.forall_mem_append.mpr ⟨blind_addressing .none .none, by simpa using blind_fetched ha.blind⟩
  · rw [hq, fetch_commit_arch hrw]
    exact ha.arch 0 _
  · rw [hq]
    exact fetch_commit_boundary hrw ((ha.brk ⟨0, false⟩ _).trans hb.2.2.2)

/-! ### Storing instructions -/

/-- A store action drives this byte and has this effect on the programmer-visible state, and no other. -/
structure Drives (store : State → State) (value : Byte) (effect : Arch → Arch) (u : State) : Prop where
  arch : (store u).arch = effect u.arch
  dout : (store u).dout = value
  rw : (store u).rw = true
  addr : (store u).addr = u.addr
  ir : (store u).ir = u.ir
  sync : (store u).sync = u.sync
  brk : (store u).brk = u.brk

theorem commit_arch_write {s : State} (h : s.rw = true) : s.commit.arch = s.arch.store s.addr s.dout := by
  simp [State.commit, State.arch, Arch.store, h]

/-- The tick that fetches after a write leaves the programmer-visible state. -/
theorem quietStep_fetchTick_arch (op : Byte) (k : Nat) (data : Option Byte) (s : State) :
    (quietStep fetchTick op k data s).arch = s.arch := rfl

/-- A store form completes with its byte stored at its address. -/
theorem completes_write {i : Instr} {m : Mode} {store : State → State} {value : Byte} {effect : Arch → Arch}
    {operand : List (Option Byte)} {len ea base : Word} {s : State}
    (hx : exec i s = runReading i (writeTicks m store) operand s) (hl : EnvBlind fun _ => store)
    (hd : ∀ n d, Drives store value effect (s.during i.opcode n (s.pc + len) base ea d)) (hb : s.AtBoundary)
    (hn : (addressing m .write).length < 8) (hr : Addresses m .write i operand len ea base s) :
    Completes i s ((effect (s.arch.skip len)).store ea value) := by
  obtain ⟨d, hq⟩ := hr (fun _ s => store s) [fetchTick]
  have h := hd (addressing m .write).length d
  have hstep : quietInstr i (writeTicks m store) operand s = _ := hq.trans
    (quietTicks_step (n := 0) (act := fetchTick) (op := i.opcode) (k := (addressing m .write).length) h.sync h.ir hn
      (by rw [List.getElem?_append_right (by rw [length_appendLast]), length_appendLast]; simp))
  refine completes_of_quiet hx ?_ ?_ ?_
  · exact List.forall_mem_append.mpr ⟨blind_appendLast hl (blind_addressing m .write), by simpa using blind_fetchTick⟩
  · rw [hstep, quietTicks, quietStep_fetchTick_arch, commit_arch_write h.rw, h.arch, h.addr, h.dout]
    rfl
  · rw [hstep, quietTicks]
    exact ⟨rfl, rfl, rfl, h.brk.trans hb.2.2.2⟩

/-! ### Read-modify-write instructions -/

/-- The final step of a read-modify-write instruction has this effect on the programmer-visible state, and none on the pins, IR, memory
or a sequence under way. -/
structure ModifiesAs (f : Byte → State → Byte × State) (effect : Byte → Arch → Byte × Arch) : Prop where
  blind : ∀ v s n ls, (f v (s.withEnv n ls)).1 = (f v s).1 ∧ ∃ m, (f v (s.withEnv n ls)).2 = (f v s).2.withEnv m ls
  value : ∀ v s, (f v s).1 = (effect v s.arch).1
  arch : ∀ v s, (f v s).2.arch = (effect v s.arch).2
  mem : ∀ v r m, effect v { r with mem := m } = ((effect v r).1, { (effect v r).2 with mem := m })
  addr : ∀ v s, (f v s).2.addr = s.addr
  ir : ∀ v s, (f v s).2.ir = s.ir
  sync : ∀ v s, (f v s).2.sync = s.sync
  brk : ∀ v s, (f v s).2.brk = s.brk

/-- A read-modify-write form completes with the new value stored at its address, and the other effects of computing it. -/
theorem completes_modify {i : Instr} {m : Mode} {f : Byte → State → Byte × State} {effect : Byte → Arch → Byte × Arch}
    {operand : List (Option Byte)} {len ea base : Word} {s : State}
    (hx : exec i s = runReading i (modifyTicks m f) operand s) (hf : ModifiesAs f effect) (hb : s.AtBoundary) (hw : s.mem.wf)
    (hn : (addressing m .readWrite).length + 2 < 8) (ho : operand.length ≤ (addressing m .readWrite).length)
    (hr : Addresses m .readWrite i operand len ea base s) :
    Completes i s ((effect (s.readByte ea) (s.arch.skip len)).2.store ea (effect (s.readByte ea) (s.arch.skip len)).1) := by
  obtain ⟨d, hq⟩ := hr (fun _ s => s) [fun c s => { s with ad := zext16 c.dbus, rw := true },
    fun _ s => match f (lo s.ad) s with | (v, s) => s.drive v, fetchTick]
  rw [appendLast_id] at hq
  have hnone : ∀ k, (addressing m .readWrite).length ≤ k → operand[k]?.getD none = none := fun k hk => by
    rw [List.getElem?_eq_none (ho.trans hk)]; rfl
  have hat : ∀ rest k, ((addressing m .readWrite) ++ rest)[(addressing m .readWrite).length + k]? = rest[k]? := fun rest k => by
    rw [List.getElem?_append_right (by omega)]; congr 1; omega
  generalize hk : (addressing m .readWrite).length = k at *
  -- the state at the final step, after the dummy write
  let u : State := { s.during i.opcode (k + 2) (s.pc + len) (zext16 (s.readByte ea)) ea (s.readByte ea) with
    mem := s.mem.write ea.toNat (s.readByte ea) }
  have hstep : quietInstr i (modifyTicks m f) operand s =
      quietStep fetchTick i.opcode (k + 2) (operand[k + 2]?.getD none)
        (((f (s.readByte ea) u).2.drive (f (s.readByte ea) u).1).commit) := by
    refine hq.trans ?_
    show quietTicks _ _ 3 (s.during i.opcode k (s.pc + len) base ea d) = _
    rw [quietTicks_during (by omega) (hat _ 0), hnone k le_rfl]
    rw [quietTicks_step (k := k + 1) (op := i.opcode) rfl rfl (by omega) (hat _ 1), hnone (k + 1) (by omega)]
    have h2 : quietStep (fun _ s => match f (lo s.ad) s with | (v, s) => s.drive v) i.opcode (k + 1) none
        ({ s.during i.opcode (k + 1) (s.pc + len) base ea (s.readByte ea) with
          ad := zext16 (s.readByte ea), rw := true } : State).commit =
        ((f (s.readByte ea) u).2.drive (f (s.readByte ea) u).1).commit := by
      show (((f (lo (zext16 (s.readByte ea))) u).2).drive (f (lo (zext16 (s.readByte ea))) u).1).commit = _
      rw [lo_zext16]
    refine Eq.trans (congrArg (quietTicks _ _ 1) h2) ?_
    exact quietTicks_step (n := 0) (hf.sync _ _) (hf.ir _ _) (by omega) (hat _ 2)
  refine completes_of_quiet hx ?_ ?_ ?_
  · refine List.forall_mem_append.mpr ⟨blind_addressing m .readWrite, ?_⟩
    simp only [List.forall_mem_cons, List.not_mem_nil, false_implies, implies_true, and_true]
    refine ⟨fun _ _ n _ => ⟨n, rfl⟩, ?_, blind_fetchTick⟩
    intro c s n ls
    obtain ⟨h1, m, h2⟩ := hf.blind (lo s.ad) s n ls
    refine ⟨m, ?_⟩
    show ((f (lo s.ad) (s.withEnv n ls)).2).drive (f (lo s.ad) (s.withEnv n ls)).1 = _
    rw [h1, h2]
    rfl
  · rw [hstep, quietStep_fetchTick_arch, commit_arch_write rfl]
    have hu : u.arch = { s.arch.skip len with mem := s.mem.write ea.toNat (s.readByte ea) } := rfl
    have hmem := hf.mem (s.readByte ea) (s.arch.skip len) (s.mem.write ea.toNat (s.readByte ea))
    have hkeep := hf.mem (s.readByte ea) (s.arch.skip len) s.mem
    have hval : (f (s.readByte ea) u).1 = (effect (s.readByte ea) (s.arch.skip len)).1 := by rw [hf.value, hu, hmem]
    have harch : (f (s.readByte ea) u).2.arch = { (effect (s.readByte ea) (s.arch.skip len)).2 with
        mem := s.mem.write ea.toNat (s.readByte ea) } := by rw [hf.arch, hu, hmem]
    have hm : (effect (s.readByte ea) (s.arch.skip len)).2.mem = s.mem := congrArg (fun q => q.2.mem) hkeep
    show (f (s.readByte ea) u).2.arch.store (f (s.readByte ea) u).2.addr (f (s.readByte ea) u).1 = _
    rw [hval, harch, hf.addr]
    simp only [Arch.store, hm]
    rw [show u.addr = ea from rfl, Memory.write_write hw ea.isLt]
  · rw [hstep]
    exact ⟨rfl, rfl, rfl, (hf.brk _ _).trans hb.2.2.2⟩

end Sys2Proof.Machine
end

