-- ==== Sys2Proof/Laws/Control.lean ====
section
/-!
SUPPORT. What the shared sequences of Ops.lean and Control.lean come to in a quiet run: pushing, pulling, taking an interrupt, branching.
-/
namespace Sys2Proof.Machine

/-! ### Pushes and pulls during a run -/

section
variable (s : State) (op : Byte) (k : Nat) (pc ad addr : Word) (d v : Byte)

/-- The state after a push. -/
def State.pushed (s : State) (v : Byte) : State :=
  { s with sp := s.sp - 1, mem := s.mem.write (stackAddr s.sp).toNat v }

/-- The state before a sub-cycle, a write cycle having been set up. -/
def State.afterWrite (s : State) (op : Byte) (k : Nat) (pc ad addr : Word) (d : Byte) : State :=
  { s.during op k pc ad addr d with rw := true }

theorem pushed_arch : (s.pushed v).arch = s.arch.push v := rfl

theorem push_during : ((s.during op k pc ad addr d).push v).commit =
    (s.pushed v).afterWrite op k pc ad (stackAddr s.sp) v := rfl

theorem stepStack_during : ((s.during op k pc ad addr d).stepStack).commit =
    ({ s with sp := s.sp + 1 } : State).during op k pc ad (stackAddr s.sp) d := rfl

theorem readStack_during : ((s.during op k pc ad addr d).readStack).commit =
    s.during op k pc ad (stackAddr s.sp) d := rfl

end

theorem quietTicks_afterWrite {ticks : List Action} {operand : List (Option Byte)} {n k : Nat} {s : State} {op : Byte}
    {pc ad addr : Word} {d : Byte} {act : Action} (hk : k < 8) (ha : ticks[k]? = some act) :
    quietTicks ticks operand (n + 1) (s.afterWrite op k pc ad addr d) =
      quietTicks ticks operand n (act { dbus := d, res := false } (s.during op (k + 1) pc ad addr d)).commit :=
  quietTicks_step rfl rfl hk ha

/-! ### Pushing and pulling instructions -/

theorem completes_push {i : Instr} {v : State → Byte} {value : Byte} {s : State}
    (hx : exec i s = runReading i (pushTicks v) [none] s) (hv : ∀ u : State, u.arch = s.arch.skip 1 → v u = value)
    (hl : ∀ u n ls, v (State.withEnv u n ls) = v u) (hb : s.AtBoundary) : Completes i s ((s.arch.skip 1).push value) := by
  have hq : quietInstr i (pushTicks v) [none] s =
      quietStep fetchTick i.opcode 2 none ((s.pushed value).afterWrite i.opcode 2 (s.pc + 1) s.ad (stackAddr s.sp) value) := by
    rw [pushTicks, addressing, List.cons_append, List.nil_append, quietInstr_start hb.2.1]
    show quietTicks _ _ 2 (s.during i.opcode 1 (s.pc + 1) s.ad (s.pc + 1) i.opcode) = _
    rw [quietTicks_during (by decide) rfl, push_during, hv _ rfl]
    exact quietTicks_step rfl rfl (by decide) rfl
  refine completes_of_quiet hx ?_ ?_ ?_
  · simp only [pushTicks, addressing, List.cons_append, List.nil_append, List.forall_mem_cons, List.not_mem_nil, false_implies,
      implies_true, and_true]
    exact ⟨fun _ _ n _ => ⟨n, rfl⟩, fun _ s n ls => ⟨n, by show (s.withEnv n ls).push (v (s.withEnv n ls)) = _; rw [hl]; rfl⟩, blind_fetchTick⟩
  · rw [hq]; rfl
  · rw [hq]; exact ⟨rfl, rfl, rfl, hb.2.2.2⟩

theorem completes_pull {i : Instr} {op : Action} {effect : Byte → Arch → Arch} {s : State}
    (hx : exec i s = runReading i (pullTicks op) [none] s) (ha : ActsAs op effect) (hb : s.AtBoundary) :
    Completes i s (effect (s.readByte (stackAddr (s.sp + 1))) { s.arch.skip 1 with sp := s.sp + 1 }) := by
  obtain ⟨u, hu, hrw, hbrk, hq⟩ : ∃ u : State, u.arch = { s.arch.skip 1 with sp := s.sp + 1 } ∧ u.rw = false ∧
      u.brk = BrkFlags.empty ∧ quietInstr i (pullTicks op) [none] s =
        ((op { dbus := s.readByte (stackAddr (s.sp + 1)), res := false } u).fetch).commit := by
    refine ⟨({ s with sp := s.sp + 1 } : State).during i.opcode 4 (s.pc + 1) s.ad (stackAddr (s.sp + 1))
      (s.readByte (stackAddr (s.sp + 1))), rfl, rfl, hb.2.2.2, ?_⟩
    rw [pullTicks, addressing, List.cons_append, List.nil_append, quietInstr_start hb.2.1]
    show quietTicks _ _ 3 (s.during i.opcode 1 (s.pc + 1) s.ad (s.pc + 1) i.opcode) = _
    rw [quietTicks_during (by decide) rfl, stepStack_during, quietTicks_during (by decide) rfl, readStack_during,
      quietTicks_during (by decide) rfl]
    rfl
  refine completes_of_quiet hx ?_ ?_ ?_
  · simp only [pullTicks, addressing, List.cons_append, List.nil_append, List.forall_mem_cons, List.not_mem_nil, false_implies,
      implies_true, and_true]
    exact ⟨fun _ _ n _ => ⟨n, rfl⟩, fun _ _ n _ => ⟨n, rfl⟩, fun _ _ n _ => ⟨n, rfl⟩, blind_fetched ha.blind⟩
  · rw [hq, fetch_commit_arch (by rw [ha.rw]; exact hrw), ha.arch, hu]
  · rw [hq]
    exact fetch_commit_boundary (by rw [ha.rw]; exact hrw) (by rw [ha.brk]; exact hbrk)

/-! ### Taking an interrupt -/

/-- PC as the sequence saves it: BRK and RESET step over the padding byte (60_exceptions.md R308). -/
def savedPc (f : BrkFlags) (pc : Word) : Word := if !f.irq && !f.nmi then pc + 1 else pc

/-- The programmer-visible state the sequence leaves. -/
def Arch.entered (r : Arch) (f : BrkFlags) : Arch :=
  (if f.res then { r with sp := r.sp - 1 - 1 - 1 } else r.pushFrame (savedPc f r.pc)).enterHandler (vectorAddr f)

theorem blind_pushUnlessReset (v : State → Byte) (hv : ∀ u n ls, v (State.withEnv u n ls) = v u) :
    EnvBlind fun _ s => s.pushUnlessReset (v s) := by
  intro c s n ls
  refine ⟨n, ?_⟩
  show State.pushUnlessReset (v (s.withEnv n ls)) (s.withEnv n ls) = _
  rw [hv]
  by_cases h : s.brk.res = true
  · exact (if_pos h).trans (congrArg (fun t : State => t.withEnv n ls) (if_pos h).symm : (State.pushUnwritten (v s) s).withEnv n ls = _)
  · exact (if_neg h).trans (congrArg (fun t : State => t.withEnv n ls) (if_neg h).symm : (State.push (v s) s).withEnv n ls = _)

theorem pushPcHighTick_eq (c : Seen) (s : State) :
    pushPcHighTick c s = ({ s with pc := savedPc s.brk s.pc } : State).pushUnlessReset (hi (savedPc s.brk s.pc)) := by
  simp only [pushPcHighTick, savedPc]
  split <;> rfl

theorem blind_interruptTicks : ∀ act ∈ interruptTicks, EnvBlind act := by
  have hlow := blind_pushUnlessReset (fun s => lo s.pc) fun _ _ _ => rfl
  simp only [interruptTicks, List.forall_mem_cons, List.not_mem_nil, false_implies, implies_true, and_true]
  refine ⟨fun _ _ n _ => ⟨n, rfl⟩, fun c s n ls => ?_, hlow, fun c s n ls => ?_, fun _ _ n _ => ⟨n, rfl⟩,
    fun _ _ n _ => ⟨n, rfl⟩, fun _ _ n _ => ⟨n, rfl⟩⟩
  · obtain ⟨m, hm⟩ := blind_pushUnlessReset (fun s => hi s.pc) (fun _ _ _ => rfl) c { s with pc := savedPc s.brk s.pc } n ls
    exact ⟨m, by rw [pushPcHighTick_eq, pushPcHighTick_eq]; exact hm⟩
  · obtain ⟨m, hm⟩ := blind_pushUnlessReset (fun s => pushedStatus s.p) (fun _ _ _ => rfl) c s n ls
    exact ⟨m, congrArg (fun t : State => ({ t with ad := vectorAddr s.brk } : State)) hm⟩

section
variable (s : State) (op : Byte) (k : Nat) (pc ad addr : Word) (d v : Byte) (c : Seen)

theorem pushUnlessReset_during (h : s.brk.res = false) : ((s.during op k pc ad addr d).pushUnlessReset v).commit =
    (s.pushed v).afterWrite op k pc ad (stackAddr s.sp) v :=
  congrArg State.commit (if_neg (by show ¬ s.brk.res = true; simp [h]))

theorem pushUnlessReset_reset (h : s.brk.res = true) : ((s.during op k pc ad addr d).pushUnlessReset v).commit =
    ({ s with sp := s.sp - 1 } : State).during op k pc ad (stackAddr s.sp) v :=
  congrArg State.commit (if_pos h)

theorem pushStatusTick_during (h : s.brk.res = false) : (pushStatusTick c (s.during op k pc ad addr d)).commit =
    (s.pushed (pushedStatus s.p)).afterWrite op k pc (vectorAddr s.brk) (stackAddr s.sp) (pushedStatus s.p) :=
  congrArg (fun t : State => ({ t with ad := vectorAddr s.brk } : State).commit)
    (if_neg (by show ¬ s.brk.res = true; simp [h]) :
      State.pushUnlessReset (pushedStatus s.p) (s.during op k pc ad addr d) = (s.during op k pc ad addr d).push (pushedStatus s.p))

theorem pushStatusTick_reset (h : s.brk.res = true) : (pushStatusTick c (s.during op k pc ad addr d)).commit =
    ({ s with sp := s.sp - 1 } : State).during op k pc (vectorAddr s.brk) (stackAddr s.sp) (pushedStatus s.p) :=
  congrArg (fun t : State => ({ t with ad := vectorAddr s.brk } : State).commit)
    (if_pos h : State.pushUnlessReset (pushedStatus s.p) (s.during op k pc ad addr d) =
      (s.during op k pc ad addr d).pushUnwritten (pushedStatus s.p))

/-- The state with IRQ masked, P.B set and the set consumed. -/
def State.masked (s : State) : State :=
  { s with p := setFlag (setFlag s.p .i true) .b true, brk := BrkFlags.empty }

theorem vectorLowTick_during : (vectorLowTick c (s.during op k pc ad addr d)).commit =
    (s.masked).during op k pc (ad + 1) ad d := rfl

theorem vectorHighTick_during : (vectorHighTick c (s.during op k pc ad addr d)).commit =
    s.during op k pc (zext16 c.dbus) ad d := rfl

end

/-- The last two ticks of the sequence: PC takes the vector's word. -/
theorem interrupt_tail {operand : List (Option Byte)} (ho : operand.length ≤ 1) (s : State) (pc vector : Word) (d : Byte) :
    (quietTicks interruptTicks operand 2 (s.during 0 5 pc (vector + 1) vector d)).arch =
        { s.arch with pc := s.arch.word vector } ∧
      (s.brk = BrkFlags.empty → (quietTicks interruptTicks operand 2 (s.during 0 5 pc (vector + 1) vector d)).AtBoundary) := by
  have hn : ∀ k, 1 ≤ k → operand[k]?.getD none = none := fun k hk => by rw [List.getElem?_eq_none (by omega)]; rfl
  rw [quietTicks_during (act := vectorHighTick) (by decide) rfl, vectorHighTick_during,
    quietTicks_during (act := handlerTick) (by decide) rfl, hn 5 (by decide), hn 6 (by decide)]
  exact ⟨rfl, fun h => ⟨rfl, rfl, rfl, h⟩⟩

/-- The sequence from its second tick, whatever the set it runs with. -/
theorem interrupt_rest {operand : List (Option Byte)} (ho : operand.length ≤ 1) (s : State) (pc ad addr : Word) (d : Byte) :
    (quietTicks interruptTicks operand 6 (s.during 0 1 pc ad addr d)).arch = ({ s.arch with pc := pc } : Arch).entered s.brk ∧
      (quietTicks interruptTicks operand 6 (s.during 0 1 pc ad addr d)).AtBoundary := by
  rw [quietTicks_during (act := pushPcHighTick) (by decide) rfl, pushPcHighTick_eq]
  by_cases hres : s.brk.res = true
  · have e : ∀ r : Arch, r.entered s.brk = ({ r with sp := r.sp - 1 - 1 - 1 } : Arch).enterHandler (vectorAddr s.brk) :=
      fun r => congrArg (fun t : Arch => t.enterHandler (vectorAddr s.brk)) (if_pos hres)
    rw [e]
    show (quietTicks _ _ 5 (State.pushUnlessReset _ (s.during 0 2 (savedPc s.brk pc) ad addr _)).commit).arch = _ ∧
      (quietTicks _ _ 5 (State.pushUnlessReset _ (s.during 0 2 (savedPc s.brk pc) ad addr _)).commit).AtBoundary
    rw [pushUnlessReset_reset _ _ _ _ _ _ _ _ hres, quietTicks_during (act := pushPcLowTick) (by decide) rfl, pushPcLowTick,
      pushUnlessReset_reset _ _ _ _ _ _ _ _ (by exact hres), quietTicks_during (act := pushStatusTick) (by decide) rfl,
      pushStatusTick_reset _ _ _ _ _ _ _ _ (by exact hres), quietTicks_during (act := vectorLowTick) (by decide) rfl,
      vectorLowTick_during]
    have h := fun d => interrupt_tail ho ({ s with sp := s.sp - 1 - 1 - 1 } : State).masked (savedPc s.brk pc)
      (vectorAddr s.brk) d
    exact ⟨(h _).1, (h _).2 rfl⟩
  · rw [Bool.not_eq_true] at hres
    have e : ∀ r : Arch, r.entered s.brk = (r.pushFrame (savedPc s.brk r.pc)).enterHandler (vectorAddr s.brk) :=
      fun r => congrArg (fun t : Arch => t.enterHandler (vectorAddr s.brk)) (if_neg (by simp [hres]))
    rw [e]
    show (quietTicks _ _ 5 (State.pushUnlessReset _ (s.during 0 2 (savedPc s.brk pc) ad addr _)).commit).arch = _ ∧
      (quietTicks _ _ 5 (State.pushUnlessReset _ (s.during 0 2 (savedPc s.brk pc) ad addr _)).commit).AtBoundary
    rw [pushUnlessReset_during _ _ _ _ _ _ _ _ hres, quietTicks_afterWrite (act := pushPcLowTick) (by decide) rfl, pushPcLowTick,
      pushUnlessReset_during _ _ _ _ _ _ _ _ (by exact hres), quietTicks_afterWrite (act := pushStatusTick) (by decide) rfl,
      pushStatusTick_during _ _ _ _ _ _ _ _ (by exact hres), quietTicks_afterWrite (act := vectorLowTick) (by decide) rfl,
      vectorLowTick_during]
    have h := fun d => interrupt_tail ho (((s.pushed (hi (savedPc s.brk pc))).pushed (lo (savedPc s.brk pc))).pushed
      (pushedStatus s.p)).masked (savedPc s.brk pc) (vectorAddr s.brk) d
    exact ⟨(h _).1, (h _).2 rfl⟩

/-- The boundary tick of the sequence. -/
theorem cycle_enterInterrupt {s : State} (hb : s.AtBoundary) :
    ∃ m ks d, cycle (fun c s => microStep interruptTicks c s.enterInterrupt) none s =
      (({ s with p := setFlag s.p .b false, brk := recognised s } : State).during 0 1 s.pc s.ad s.pc d).withEnv m ks := by
  obtain ⟨n, ks, d, he, -⟩ := awaitReady_eq none s.lines s
  have hrec : recognised s = (({ s.withEnv n ks with dout := d } : State).sampled
      (({ s.withEnv n ks with dout := d } : State).busInput none)).requests := by rw [recognised, he]
  have hrw : s.rw = false := hb.2.1
  have h0 : ∀ u : State, u.enterInterrupt.subCycle = 0 := fun u => by
    show ((0 : BitVec 11) &&& 7).toNat = 0
    decide
  have hm : ∀ c (u : State), microStep interruptTicks c u.enterInterrupt =
      ({ u.enterInterrupt with rw := false, ir := irAt 0 1 } : State).readAtPc := fun c u => by
    rw [microStep, h0]
    rfl
  rw [hrec, cycle, cycleWith, he]
  generalize ({ s.withEnv n ks with dout := d } : State).busInput none = inp
  have hdout : ∀ din, ({ s.withEnv n ks with dout := d } : State).dbus din = din := fun din => if_neg (by
    show ¬ s.rw = true
    simp [hrw])
  simp only [State.liveTick, hm]
  generalize hx : ({ s.withEnv n ks with dout := d } : State).sampled inp = x
  have hx' : x = ({ s with dout := inp.din } : State).withEnv x.intr ks := by
    rw [← hx]
    simp only [State.sampled, hdout]
    rfl
  rw [hx']
  exact ⟨_, _, inp.din, rfl⟩

/-- Taking an interrupt or a reset that the boundary recognises. -/
theorem takeInterrupt_arch {s : State} (hb : s.AtBoundary) :
    (takeInterrupt s).arch = ({ s.arch with p := setFlag s.p .b false } : Arch).entered (recognised s) ∧
      (takeInterrupt s).AtBoundary := by
  obtain ⟨m, ks, d, hc⟩ := cycle_enterInterrupt hb
  obtain ⟨m', ks', hq⟩ := runTicks_quiet blind_interruptTicks [] 6
    (({ s with p := setFlag s.p .b false, brk := recognised s } : State).during 0 1 s.pc s.ad s.pc d) m ks
  have h := interrupt_rest (operand := []) (by simp) ({ s with p := setFlag s.p .b false, brk := recognised s } : State) s.pc s.ad
    s.pc d
  have ht : takeInterrupt s = _ := (congrArg (runTicks interruptTicks [] 6) hc).trans hq
  rw [ht]
  exact ⟨h.1, h.2⟩

end Sys2Proof.Machine
end

