-- ==== Sys2Proof/Laws/Flags.lean ====
section
/-!
SUPPORT. What each update of the status register does to each flag: the flags it names are written, the others kept.
-/
namespace Sys2Proof.Machine

theorem Flag.bit_injective {f g : Flag} (h : f.bit = g.bit) : f = g := by
  cases f <;> cases g <;> first | rfl | (simp [Flag.bit] at h)

theorem Flag.bit_lt (f : Flag) : f.bit < 8 := by cases f <;> decide

@[simp] theorem getFlag_setFlag (p : Byte) (f g : Flag) (v : Bool) :
    getFlag (setFlag p f v) g = if f = g then v else getFlag p g := by
  cases f <;> cases g <;> cases v <;> simp [getFlag, setFlag, Flag.bit]

/-- Status bytes with the same flags are one status byte. -/
theorem status_ext {p q : Byte} (h : ∀ f, getFlag p f = getFlag q f) : p = q := by
  apply BitVec.eq_of_getLsbD_eq
  intro k hk
  have : ∃ f : Flag, f.bit = k := by
    interval_cases k
    exacts [⟨.c, rfl⟩, ⟨.z, rfl⟩, ⟨.i, rfl⟩, ⟨.d, rfl⟩, ⟨.b, rfl⟩, ⟨.x5, rfl⟩, ⟨.v, rfl⟩, ⟨.n, rfl⟩]
  obtain ⟨f, rfl⟩ := this
  exact h f

theorem getFlag_setNZ (p v : Byte) (f : Flag) :
    getFlag (setNZ p v) f = match f with | .n => v.msb | .z => v == 0 | f => getFlag p f := by
  cases f <;> simp [setNZ]

theorem getFlag_setNVZC (p : Byte) (q : AluResult) (f : Flag) :
    getFlag (setNVZC p q) f = match f with | .n => q.n | .v => q.v | .z => q.z | .c => q.c | f => getFlag p f := by
  cases f <;> simp [setNVZC]

theorem getFlag_shiftStatus (p : Byte) (q : Byte × Bool) (f : Flag) :
    getFlag (shiftStatus p q) f = match f with | .n => q.1.msb | .z => q.1 == 0 | .c => q.2 | f => getFlag p f := by
  cases f <;> simp [shiftStatus, getFlag_setNZ]

theorem getFlag_bitStatus (p a m : Byte) (f : Flag) :
    getFlag (bitStatus p a m) f = match f with
      | .n => m.msb | .v => m.getLsbD 6 | .z => (a &&& m) == 0 | f => getFlag p f := by
  cases f <;> simp [bitStatus]

theorem getFlag_pushedStatus (p : Byte) (f : Flag) : getFlag (pushedStatus p) f = (f == .x5 || getFlag p f) := by
  cases f <;> simp [pushedStatus, getFlag, Flag.bit]

theorem getFlag_pulledStatus (v : Byte) (f : Flag) :
    getFlag (pulledStatus v) f = match f with | .b => true | .x5 => false | f => getFlag v f := by
  cases f <;> simp [pulledStatus, getFlag, Flag.bit]

/-! ### Binary or decimal by P.D -/

theorem adcResult_eq (op : DecimalOp) (d : Bool) (a m : Byte) (c : Bool) :
    adcResult op d a m c = if d = false then adcBin a m c
      else if isBcd a && isBcd m then adcDec a m c else Config.decimalInvalid op a m c := by
  cases d <;> simp [adcResult, decimal]

theorem sbcResult_eq (op : DecimalOp) (d : Bool) (a m : Byte) (c : Bool) :
    sbcResult op d a m c = if d = false then sbcBin a m c
      else if isBcd a && isBcd m then sbcDec a m c else Config.decimalInvalid op a m c := by
  cases d <;> simp [sbcResult, decimal]

theorem arrResult_eq (d : Bool) (a m : Byte) (c : Bool) :
    arrResult d a m c = if d = false then arrBin a m c
      else if isBcd a && isBcd m then arrDec a m c else Config.decimalInvalid .arr a m c := by
  cases d <;> simp [arrResult, decimal]

/-- The four flags of an add hide those of a shift before it. -/
theorem setNVZC_shiftStatus (p : Byte) (w : Byte × Bool) (q : AluResult) : setNVZC (shiftStatus p w) q = setNVZC p q := by
  apply status_ext
  intro f
  rw [getFlag_setNVZC, getFlag_setNVZC]
  cases f <;> simp [getFlag_shiftStatus]

end Sys2Proof.Machine
end

