-- ==== Sys2Proof/Laws/Effects.lean ====
section
/-!
SUPPORT. What each operation does to the programmer-visible state: one lemma per operation of LoadStore.lean, Arith.lean, Control.lean
and Undocumented.lean.
-/
namespace Sys2Proof.Machine

/-! ### Operations on a byte read -/

theorem actsAs_ldaOp : ActsAs ldaOp Arch.loadA :=
  ⟨fun _ _ n _ => ⟨n, rfl⟩, fun _ _ => rfl, fun _ _ => rfl, fun _ _ => rfl⟩

theorem actsAs_ldxOp : ActsAs ldxOp Arch.loadX :=
  ⟨fun _ _ n _ => ⟨n, rfl⟩, fun _ _ => rfl, fun _ _ => rfl, fun _ _ => rfl⟩

theorem actsAs_ldyOp : ActsAs ldyOp Arch.loadY :=
  ⟨fun _ _ n _ => ⟨n, rfl⟩, fun _ _ => rfl, fun _ _ => rfl, fun _ _ => rfl⟩

theorem actsAs_oraOp : ActsAs oraOp (fun v r => Arch.loadA (r.a ||| v) r) :=
  ⟨fun _ _ n _ => ⟨n, rfl⟩, fun _ _ => rfl, fun _ _ => rfl, fun _ _ => rfl⟩

theorem actsAs_andOp : ActsAs andOp (fun v r => Arch.loadA (r.a &&& v) r) :=
  ⟨fun _ _ n _ => ⟨n, rfl⟩, fun _ _ => rfl, fun _ _ => rfl, fun _ _ => rfl⟩

theorem actsAs_eorOp : ActsAs eorOp (fun v r => Arch.loadA (r.a ^^^ v) r) :=
  ⟨fun _ _ n _ => ⟨n, rfl⟩, fun _ _ => rfl, fun _ _ => rfl, fun _ _ => rfl⟩

theorem actsAs_adcOp : ActsAs adcOp (fun v r => Arch.loadAlu (adcResult .adc (r.flag .d) r.a v (r.flag .c)) r) :=
  ⟨fun _ _ n _ => ⟨n, rfl⟩, fun _ _ => rfl, fun _ _ => rfl, fun _ _ => rfl⟩

theorem actsAs_sbcOp : ActsAs sbcOp (fun v r => Arch.loadAlu (sbcResult .sbc (r.flag .d) r.a v (r.flag .c)) r) :=
  ⟨fun _ _ n _ => ⟨n, rfl⟩, fun _ _ => rfl, fun _ _ => rfl, fun _ _ => rfl⟩

theorem actsAs_cmpOp : ActsAs cmpOp (fun v r => { r with p := cmpStatus r.p r.a v }) :=
  ⟨fun _ _ n _ => ⟨n, rfl⟩, fun _ _ => rfl, fun _ _ => rfl, fun _ _ => rfl⟩

theorem actsAs_cpxOp : ActsAs cpxOp (fun v r => { r with p := cmpStatus r.p r.x v }) :=
  ⟨fun _ _ n _ => ⟨n, rfl⟩, fun _ _ => rfl, fun _ _ => rfl, fun _ _ => rfl⟩

theorem actsAs_cpyOp : ActsAs cpyOp (fun v r => { r with p := cmpStatus r.p r.y v }) :=
  ⟨fun _ _ n _ => ⟨n, rfl⟩, fun _ _ => rfl, fun _ _ => rfl, fun _ _ => rfl⟩

theorem actsAs_bitOp : ActsAs bitOp (fun v r => { r with p := bitStatus r.p r.a v }) :=
  ⟨fun _ _ n _ => ⟨n, rfl⟩, fun _ _ => rfl, fun _ _ => rfl, fun _ _ => rfl⟩

theorem actsAs_nopReadOp : ActsAs nopReadOp (fun _ r => r) :=
  ⟨fun _ _ n _ => ⟨n, rfl⟩, fun _ _ => rfl, fun _ _ => rfl, fun _ _ => rfl⟩

theorem actsAs_laxOp : ActsAs laxOp (fun v r => { Arch.loadA v r with x := v }) :=
  ⟨fun _ _ n _ => ⟨n, rfl⟩, fun _ _ => rfl, fun _ _ => rfl, fun _ _ => rfl⟩

theorem actsAs_ancOp : ActsAs ancOp (fun v r => { Arch.loadA (r.a &&& v) r with p := setFlag (setNZ r.p (r.a &&& v)) .c (r.a &&& v).msb }) :=
  ⟨fun _ _ n _ => ⟨n, rfl⟩, fun _ _ => rfl, fun _ _ => rfl, fun _ _ => rfl⟩

theorem actsAs_asrOp : ActsAs asrOp (fun v r => { r with a := (lsr (r.a &&& v)).1, p := shiftStatus r.p (lsr (r.a &&& v)) }) :=
  ⟨fun _ _ n _ => ⟨n, rfl⟩, fun _ _ => rfl, fun _ _ => rfl, fun _ _ => rfl⟩

theorem actsAs_arrOp : ActsAs arrOp (fun v r => Arch.loadAlu (arrResult (r.flag .d) r.a v (r.flag .c)) r) :=
  ⟨fun _ _ n _ => ⟨n, rfl⟩, fun _ _ => rfl, fun _ _ => rfl, fun _ _ => rfl⟩

theorem actsAs_aneOp : ActsAs aneOp (fun v r => Arch.loadA ((r.a ||| Config.magicAne) &&& r.x &&& v) r) :=
  ⟨fun _ _ n _ => ⟨n, rfl⟩, fun _ _ => rfl, fun _ _ => rfl, fun _ _ => rfl⟩

theorem actsAs_lxaOp : ActsAs lxaOp (fun v r => { Arch.loadA ((r.a ||| Config.magicLxa) &&& v) r with x := (r.a ||| Config.magicLxa) &&& v }) :=
  ⟨fun _ _ n _ => ⟨n, rfl⟩, fun _ _ => rfl, fun _ _ => rfl, fun _ _ => rfl⟩

theorem actsAs_sbxOp : ActsAs sbxOp (fun v r => { r with x := (sbx r.a r.x v).1, p := setFlag (setNZ r.p (sbx r.a r.x v).1) .c (sbx r.a r.x v).2 }) :=
  ⟨fun _ _ n _ => ⟨n, rfl⟩, fun _ _ => rfl, fun _ _ => rfl, fun _ _ => rfl⟩

theorem actsAs_lasOp : ActsAs lasOp (fun v r => { Arch.loadA (v &&& r.sp) r with x := v &&& r.sp, sp := v &&& r.sp }) :=
  ⟨fun _ _ n _ => ⟨n, rfl⟩, fun _ _ => rfl, fun _ _ => rfl, fun _ _ => rfl⟩

/-! ### Operations without an operand -/

theorem actsAs_taxOp : ActsAs (fun _ => taxOp) fun _ r => Arch.loadX r.a r :=
  ⟨fun _ _ n _ => ⟨n, rfl⟩, fun _ _ => rfl, fun _ _ => rfl, fun _ _ => rfl⟩

theorem actsAs_tayOp : ActsAs (fun _ => tayOp) fun _ r => Arch.loadY r.a r :=
  ⟨fun _ _ n _ => ⟨n, rfl⟩, fun _ _ => rfl, fun _ _ => rfl, fun _ _ => rfl⟩

theorem actsAs_txaOp : ActsAs (fun _ => txaOp) fun _ r => Arch.loadA r.x r :=
  ⟨fun _ _ n _ => ⟨n, rfl⟩, fun _ _ => rfl, fun _ _ => rfl, fun _ _ => rfl⟩

theorem actsAs_tyaOp : ActsAs (fun _ => tyaOp) fun _ r => Arch.loadA r.y r :=
  ⟨fun _ _ n _ => ⟨n, rfl⟩, fun _ _ => rfl, fun _ _ => rfl, fun _ _ => rfl⟩

theorem actsAs_tsxOp : ActsAs (fun _ => tsxOp) fun _ r => Arch.loadX r.sp r :=
  ⟨fun _ _ n _ => ⟨n, rfl⟩, fun _ _ => rfl, fun _ _ => rfl, fun _ _ => rfl⟩

theorem actsAs_txsOp : ActsAs (fun _ => txsOp) fun _ r => { r with sp := r.x } :=
  ⟨fun _ _ n _ => ⟨n, rfl⟩, fun _ _ => rfl, fun _ _ => rfl, fun _ _ => rfl⟩

theorem actsAs_clcOp : ActsAs (fun _ => clcOp) fun _ r => { r with p := setFlag r.p .c false } :=
  ⟨fun _ _ n _ => ⟨n, rfl⟩, fun _ _ => rfl, fun _ _ => rfl, fun _ _ => rfl⟩

theorem actsAs_secOp : ActsAs (fun _ => secOp) fun _ r => { r with p := setFlag r.p .c true } :=
  ⟨fun _ _ n _ => ⟨n, rfl⟩, fun _ _ => rfl, fun _ _ => rfl, fun _ _ => rfl⟩

theorem actsAs_cliOp : ActsAs (fun _ => cliOp) fun _ r => { r with p := setFlag r.p .i false } :=
  ⟨fun _ _ n _ => ⟨n, rfl⟩, fun _ _ => rfl, fun _ _ => rfl, fun _ _ => rfl⟩

theorem actsAs_seiOp : ActsAs (fun _ => seiOp) fun _ r => { r with p := setFlag r.p .i true } :=
  ⟨fun _ _ n _ => ⟨n, rfl⟩, fun _ _ => rfl, fun _ _ => rfl, fun _ _ => rfl⟩

theorem actsAs_cldOp : ActsAs (fun _ => cldOp) fun _ r => { r with p := setFlag r.p .d false } :=
  ⟨fun _ _ n _ => ⟨n, rfl⟩, fun _ _ => rfl, fun _ _ => rfl, fun _ _ => rfl⟩

theorem actsAs_sedOp : ActsAs (fun _ => sedOp) fun _ r => { r with p := setFlag r.p .d true } :=
  ⟨fun _ _ n _ => ⟨n, rfl⟩, fun _ _ => rfl, fun _ _ => rfl, fun _ _ => rfl⟩

theorem actsAs_clvOp : ActsAs (fun _ => clvOp) fun _ r => { r with p := setFlag r.p .v false } :=
  ⟨fun _ _ n _ => ⟨n, rfl⟩, fun _ _ => rfl, fun _ _ => rfl, fun _ _ => rfl⟩

theorem actsAs_inxOp : ActsAs (fun _ => inxOp) fun _ r => Arch.loadX (r.x + 1) r :=
  ⟨fun _ _ n _ => ⟨n, rfl⟩, fun _ _ => rfl, fun _ _ => rfl, fun _ _ => rfl⟩

theorem actsAs_inyOp : ActsAs (fun _ => inyOp) fun _ r => Arch.loadY (r.y + 1) r :=
  ⟨fun _ _ n _ => ⟨n, rfl⟩, fun _ _ => rfl, fun _ _ => rfl, fun _ _ => rfl⟩

theorem actsAs_dexOp : ActsAs (fun _ => dexOp) fun _ r => Arch.loadX (r.x - 1) r :=
  ⟨fun _ _ n _ => ⟨n, rfl⟩, fun _ _ => rfl, fun _ _ => rfl, fun _ _ => rfl⟩

theorem actsAs_deyOp : ActsAs (fun _ => deyOp) fun _ r => Arch.loadY (r.y - 1) r :=
  ⟨fun _ _ n _ => ⟨n, rfl⟩, fun _ _ => rfl, fun _ _ => rfl, fun _ _ => rfl⟩

theorem actsAs_nopOp : ActsAs (fun _ => nopOp) fun _ r => r :=
  ⟨fun _ _ n _ => ⟨n, rfl⟩, fun _ _ => rfl, fun _ _ => rfl, fun _ _ => rfl⟩

theorem actsAs_aslAOp : ActsAs (fun _ => aslAOp) fun _ r => { r with a := (asl r.a).1, p := shiftStatus r.p (asl r.a) } :=
  ⟨fun _ _ n _ => ⟨n, rfl⟩, fun _ _ => rfl, fun _ _ => rfl, fun _ _ => rfl⟩

theorem actsAs_lsrAOp : ActsAs (fun _ => lsrAOp) fun _ r => { r with a := (lsr r.a).1, p := shiftStatus r.p (lsr r.a) } :=
  ⟨fun _ _ n _ => ⟨n, rfl⟩, fun _ _ => rfl, fun _ _ => rfl, fun _ _ => rfl⟩

theorem actsAs_rolAOp : ActsAs (fun _ => rolAOp) fun _ r => { r with a := (rol r.a (r.flag .c)).1, p := shiftStatus r.p (rol r.a (r.flag .c)) } :=
  ⟨fun _ _ n _ => ⟨n, rfl⟩, fun _ _ => rfl, fun _ _ => rfl, fun _ _ => rfl⟩

theorem actsAs_rorAOp : ActsAs (fun _ => rorAOp) fun _ r => { r with a := (ror r.a (r.flag .c)).1, p := shiftStatus r.p (ror r.a (r.flag .c)) } :=
  ⟨fun _ _ n _ => ⟨n, rfl⟩, fun _ _ => rfl, fun _ _ => rfl, fun _ _ => rfl⟩

/-! ### Read-modify-write steps -/

theorem modifiesAs_incStep : ModifiesAs incStep fun v r => (v + 1, { r with p := setNZ r.p (v + 1) }) :=
  ⟨fun _ _ n _ => ⟨rfl, n, rfl⟩, fun _ _ => rfl, fun _ _ => rfl, fun _ _ _ => rfl, fun _ _ => rfl, fun _ _ => rfl, fun _ _ => rfl,
    fun _ _ => rfl⟩

theorem modifiesAs_decStep : ModifiesAs decStep fun v r => (v - 1, { r with p := setNZ r.p (v - 1) }) :=
  ⟨fun _ _ n _ => ⟨rfl, n, rfl⟩, fun _ _ => rfl, fun _ _ => rfl, fun _ _ _ => rfl, fun _ _ => rfl, fun _ _ => rfl, fun _ _ => rfl,
    fun _ _ => rfl⟩

theorem modifiesAs_aslStep : ModifiesAs aslStep fun v r => ((asl v).1, { r with p := shiftStatus r.p (asl v) }) :=
  ⟨fun _ _ n _ => ⟨rfl, n, rfl⟩, fun _ _ => rfl, fun _ _ => rfl, fun _ _ _ => rfl, fun _ _ => rfl, fun _ _ => rfl, fun _ _ => rfl,
    fun _ _ => rfl⟩

theorem modifiesAs_lsrStep : ModifiesAs lsrStep fun v r => ((lsr v).1, { r with p := shiftStatus r.p (lsr v) }) :=
  ⟨fun _ _ n _ => ⟨rfl, n, rfl⟩, fun _ _ => rfl, fun _ _ => rfl, fun _ _ _ => rfl, fun _ _ => rfl, fun _ _ => rfl, fun _ _ => rfl,
    fun _ _ => rfl⟩

theorem modifiesAs_rolStep : ModifiesAs rolStep fun v r => ((rol v (r.flag .c)).1, { r with p := shiftStatus r.p (rol v (r.flag .c)) }) :=
  ⟨fun _ _ n _ => ⟨rfl, n, rfl⟩, fun _ _ => rfl, fun _ _ => rfl, fun _ _ _ => rfl, fun _ _ => rfl, fun _ _ => rfl, fun _ _ => rfl,
    fun _ _ => rfl⟩

theorem modifiesAs_rorStep : ModifiesAs rorStep fun v r => ((ror v (r.flag .c)).1, { r with p := shiftStatus r.p (ror v (r.flag .c)) }) :=
  ⟨fun _ _ n _ => ⟨rfl, n, rfl⟩, fun _ _ => rfl, fun _ _ => rfl, fun _ _ _ => rfl, fun _ _ => rfl, fun _ _ => rfl, fun _ _ => rfl,
    fun _ _ => rfl⟩

theorem modifiesAs_sloStep : ModifiesAs sloStep fun v r => ((asl v).1, Arch.loadA (r.a ||| (asl v).1) { r with p := shiftStatus r.p (asl v) }) :=
  ⟨fun _ _ n _ => ⟨rfl, n, rfl⟩, fun _ _ => rfl, fun _ _ => rfl, fun _ _ _ => rfl, fun _ _ => rfl, fun _ _ => rfl, fun _ _ => rfl,
    fun _ _ => rfl⟩

theorem modifiesAs_rlaStep : ModifiesAs rlaStep fun v r => ((rol v (r.flag .c)).1, Arch.loadA (r.a &&& (rol v (r.flag .c)).1) { r with p := shiftStatus r.p (rol v (r.flag .c)) }) :=
  ⟨fun _ _ n _ => ⟨rfl, n, rfl⟩, fun _ _ => rfl, fun _ _ => rfl, fun _ _ _ => rfl, fun _ _ => rfl, fun _ _ => rfl, fun _ _ => rfl,
    fun _ _ => rfl⟩

theorem modifiesAs_sreStep : ModifiesAs sreStep fun v r => ((lsr v).1, Arch.loadA (r.a ^^^ (lsr v).1) { r with p := shiftStatus r.p (lsr v) }) :=
  ⟨fun _ _ n _ => ⟨rfl, n, rfl⟩, fun _ _ => rfl, fun _ _ => rfl, fun _ _ _ => rfl, fun _ _ => rfl, fun _ _ => rfl, fun _ _ => rfl,
    fun _ _ => rfl⟩

theorem modifiesAs_rraStep : ModifiesAs rraStep fun v r => ((ror v (r.flag .c)).1,
    Arch.loadAlu (adcResult .rra (r.flag .d) r.a (ror v (r.flag .c)).1 (ror v (r.flag .c)).2)
      { r with p := shiftStatus r.p (ror v (r.flag .c)) }) := by
  have hd : ∀ p q, getFlag (shiftStatus p q) .d = getFlag p .d := fun p q => getFlag_shiftStatus p q .d
  have hc : ∀ p q, getFlag (shiftStatus p q) .c = q.2 := fun p q => getFlag_shiftStatus p q .c
  refine ⟨fun _ _ n _ => ⟨rfl, n, rfl⟩, fun _ _ => rfl, fun v s => ?_, fun _ _ _ => rfl, fun _ _ => rfl, fun _ _ => rfl,
    fun _ _ => rfl, fun _ _ => rfl⟩
  simp only [rraStep, State.addToA, State.flag, State.shifted, hd, hc]
  rfl

theorem modifiesAs_dcpStep : ModifiesAs dcpStep fun v r => (v - 1, { r with p := cmpStatus r.p r.a (v - 1) }) :=
  ⟨fun _ _ n _ => ⟨rfl, n, rfl⟩, fun _ _ => rfl, fun _ _ => rfl, fun _ _ _ => rfl, fun _ _ => rfl, fun _ _ => rfl, fun _ _ => rfl,
    fun _ _ => rfl⟩

theorem modifiesAs_isbStep : ModifiesAs isbStep fun v r => (v + 1, Arch.loadAlu (sbcResult .isb (r.flag .d) r.a (v + 1) (r.flag .c)) r) :=
  ⟨fun _ _ n _ => ⟨rfl, n, rfl⟩, fun _ _ => rfl, fun _ _ => rfl, fun _ _ _ => rfl, fun _ _ => rfl, fun _ _ => rfl, fun _ _ => rfl,
    fun _ _ => rfl⟩

end Sys2Proof.Machine
end

