-- ==== Sys2Proof/Laws/Forms.lean ====
section
/-!
SUPPORT. How the forms of an instruction complete: for each addressing mode, one lemma for the forms that read, one for those that store,
one for those that modify. Each asks only which microprogram the form's meaning runs.
-/
namespace Sys2Proof.Machine

theorem runsImmediate {s : State} (hb : s.AtBoundary) {op : Action} {effect : Byte → Arch → Arch} (ha : ActsAs op effect)
    {make : Byte → Instr} (hx : ∀ v, exec (make v) s = runReading (make v) (readTicks .imm op) [none, some v] s) :
    RunsImmediate s effect make :=
  fun v => completes_immediate (hx v) ha hb

theorem runsImplied {s : State} (hb : s.AtBoundary) {op : State → State} {effect : Arch → Arch}
    (ha : ActsAs (fun _ => op) fun _ => effect) {i : Instr} (hx : exec i s = runReading i (impliedTicks op) [none] s) :
    RunsImplied s effect i :=
  completes_implied hx ha hb

/-! ### Reading forms -/

theorem runsRead_zp {s : State} (hb : s.AtBoundary) {op : Action} {effect : Byte → Arch → Arch} (ha : ActsAs op effect)
    {make : Byte → Instr} (hx : ∀ z, exec (make z) s = runReading (make z) (readTicks .zp op) [none, some z] s) :
    RunsRead s effect (.zp make) :=
  fun z => completes_read (hx z) ha hb (reads_of_addresses (by decide) (by simp [addressing]) (addresses_zp hb z .read))

theorem runsRead_zpx {s : State} (hb : s.AtBoundary) {op : Action} {effect : Byte → Arch → Arch} (ha : ActsAs op effect)
    {make : Byte → Instr} (hx : ∀ z, exec (make z) s = runReading (make z) (readTicks .zpx op) [none, some z] s) :
    RunsRead s effect (.zpx make) :=
  fun z => completes_read (hx z) ha hb (reads_of_addresses (by decide) (by simp [addressing]) (addresses_zpx hb z .read))

theorem runsRead_zpy {s : State} (hb : s.AtBoundary) {op : Action} {effect : Byte → Arch → Arch} (ha : ActsAs op effect)
    {make : Byte → Instr} (hx : ∀ z, exec (make z) s = runReading (make z) (readTicks .zpy op) [none, some z] s) :
    RunsRead s effect (.zpy make) :=
  fun z => completes_read (hx z) ha hb (reads_of_addresses (by decide) (by simp [addressing]) (addresses_zpy hb z .read))

theorem runsRead_idx {s : State} (hb : s.AtBoundary) {op : Action} {effect : Byte → Arch → Arch} (ha : ActsAs op effect)
    {make : Byte → Instr} (hx : ∀ z, exec (make z) s = runReading (make z) (readTicks .idx op) [none, some z] s) :
    RunsRead s effect (.idx make) :=
  fun z => completes_read (hx z) ha hb (reads_of_addresses (by decide) (by simp [addressing]) (addresses_idx hb z .read))

theorem runsRead_idy {s : State} (hb : s.AtBoundary) {op : Action} {effect : Byte → Arch → Arch} (ha : ActsAs op effect)
    {make : Byte → Instr} (hx : ∀ z, exec (make z) s = runReading (make z) (readTicks .idy op) [none, some z] s) :
    RunsRead s effect (.idy make) :=
  fun z => completes_read (hx z) ha hb (reads_idy hb z)

theorem runsRead_abs {s : State} (hb : s.AtBoundary) {op : Action} {effect : Byte → Arch → Arch} (ha : ActsAs op effect)
    {make : Word → Instr} (hx : ∀ z, exec (make z) s = runReading (make z) (readTicks .abs op) [none, some (lo z), some (hi z)] s) :
    RunsRead s effect (.abs make) :=
  fun z => completes_read (hx z) ha hb (reads_of_addresses (by decide) (by simp [addressing]) (addresses_abs hb z .read))

theorem runsRead_abx {s : State} (hb : s.AtBoundary) {op : Action} {effect : Byte → Arch → Arch} (ha : ActsAs op effect)
    {make : Word → Instr} (hx : ∀ z, exec (make z) s = runReading (make z) (readTicks .abx op) [none, some (lo z), some (hi z)] s) :
    RunsRead s effect (.abx make) :=
  fun z => completes_read (hx z) ha hb (reads_abx hb z)

theorem runsRead_aby {s : State} (hb : s.AtBoundary) {op : Action} {effect : Byte → Arch → Arch} (ha : ActsAs op effect)
    {make : Word → Instr} (hx : ∀ z, exec (make z) s = runReading (make z) (readTicks .aby op) [none, some (lo z), some (hi z)] s) :
    RunsRead s effect (.aby make) :=
  fun z => completes_read (hx z) ha hb (reads_aby hb z)

/-! ### Storing forms -/

/-- A store action drives a byte that depends on the registers alone, and does nothing else. -/
structure Stores (store : State → State) (value : State → Byte) : Prop where
  blind : EnvBlind fun _ => store
  drives : ∀ s op n pc ad addr d, Drives store (value s) id (State.during s op n pc ad addr d)

theorem runsStore_zp {s : State} (hb : s.AtBoundary) {store : State → State} {value : State → Byte} (hd : Stores store value)
    {make : Byte → Instr} (hx : ∀ z, exec (make z) s = runReading (make z) (writeTicks .zp store) [none, some z] s) :
    RunsStore s (value s) (.zp make) :=
  fun z => completes_write (hx z) hd.blind (fun _ _ => hd.drives ..) hb (by simp [addressing]) (addresses_zp hb z .write)

theorem runsStore_zpx {s : State} (hb : s.AtBoundary) {store : State → State} {value : State → Byte} (hd : Stores store value)
    {make : Byte → Instr} (hx : ∀ z, exec (make z) s = runReading (make z) (writeTicks .zpx store) [none, some z] s) :
    RunsStore s (value s) (.zpx make) :=
  fun z => completes_write (hx z) hd.blind (fun _ _ => hd.drives ..) hb (by simp [addressing]) (addresses_zpx hb z .write)

theorem runsStore_zpy {s : State} (hb : s.AtBoundary) {store : State → State} {value : State → Byte} (hd : Stores store value)
    {make : Byte → Instr} (hx : ∀ z, exec (make z) s = runReading (make z) (writeTicks .zpy store) [none, some z] s) :
    RunsStore s (value s) (.zpy make) :=
  fun z => completes_write (hx z) hd.blind (fun _ _ => hd.drives ..) hb (by simp [addressing]) (addresses_zpy hb z .write)

theorem runsStore_idx {s : State} (hb : s.AtBoundary) {store : State → State} {value : State → Byte} (hd : Stores store value)
    {make : Byte → Instr} (hx : ∀ z, exec (make z) s = runReading (make z) (writeTicks .idx store) [none, some z] s) :
    RunsStore s (value s) (.idx make) :=
  fun z => completes_write (hx z) hd.blind (fun _ _ => hd.drives ..) hb (by simp [addressing]) (addresses_idx hb z .write)

theorem runsStore_idy {s : State} (hb : s.AtBoundary) {store : State → State} {value : State → Byte} (hd : Stores store value)
    {make : Byte → Instr} (hx : ∀ z, exec (make z) s = runReading (make z) (writeTicks .idy store) [none, some z] s) :
    RunsStore s (value s) (.idy make) :=
  fun z => completes_write (hx z) hd.blind (fun _ _ => hd.drives ..) hb (by simp [addressing]) (addresses_idy hb z (by decide))

theorem runsStore_abs {s : State} (hb : s.AtBoundary) {store : State → State} {value : State → Byte} (hd : Stores store value)
    {make : Word → Instr} (hx : ∀ z, exec (make z) s = runReading (make z) (writeTicks .abs store) [none, some (lo z), some (hi z)] s) :
    RunsStore s (value s) (.abs make) :=
  fun z => completes_write (hx z) hd.blind (fun _ _ => hd.drives ..) hb (by simp [addressing]) (addresses_abs hb z .write)

theorem runsStore_abx {s : State} (hb : s.AtBoundary) {store : State → State} {value : State → Byte} (hd : Stores store value)
    {make : Word → Instr} (hx : ∀ z, exec (make z) s = runReading (make z) (writeTicks .abx store) [none, some (lo z), some (hi z)] s) :
    RunsStore s (value s) (.abx make) :=
  fun z => completes_write (hx z) hd.blind (fun _ _ => hd.drives ..) hb (by simp [addressing]) (addresses_abx hb z (by decide))

theorem runsStore_aby {s : State} (hb : s.AtBoundary) {store : State → State} {value : State → Byte} (hd : Stores store value)
    {make : Word → Instr} (hx : ∀ z, exec (make z) s = runReading (make z) (writeTicks .aby store) [none, some (lo z), some (hi z)] s) :
    RunsStore s (value s) (.aby make) :=
  fun z => completes_write (hx z) hd.blind (fun _ _ => hd.drives ..) hb (by simp [addressing]) (addresses_aby hb z (by decide))

/-! ### Modifying forms -/

theorem runsModify_zp {s : State} (hb : s.AtBoundary) (hw : s.mem.wf) {f : Byte → State → Byte × State}
    {effect : Byte → Arch → Byte × Arch} (hf : ModifiesAs f effect) {make : Byte → Instr}
    (hx : ∀ z, exec (make z) s = runReading (make z) (modifyTicks .zp f) [none, some z] s) : RunsModify s effect (.zp make) :=
  fun z => completes_modify (hx z) hf hb hw (by simp [addressing]) (by simp [addressing]) (addresses_zp hb z .readWrite)

theorem runsModify_zpx {s : State} (hb : s.AtBoundary) (hw : s.mem.wf) {f : Byte → State → Byte × State}
    {effect : Byte → Arch → Byte × Arch} (hf : ModifiesAs f effect) {make : Byte → Instr}
    (hx : ∀ z, exec (make z) s = runReading (make z) (modifyTicks .zpx f) [none, some z] s) : RunsModify s effect (.zpx make) :=
  fun z => completes_modify (hx z) hf hb hw (by simp [addressing]) (by simp [addressing]) (addresses_zpx hb z .readWrite)

theorem runsModify_idx {s : State} (hb : s.AtBoundary) (hw : s.mem.wf) {f : Byte → State → Byte × State}
    {effect : Byte → Arch → Byte × Arch} (hf : ModifiesAs f effect) {make : Byte → Instr}
    (hx : ∀ z, exec (make z) s = runReading (make z) (modifyTicks .idx f) [none, some z] s) : RunsModify s effect (.idx make) :=
  fun z => completes_modify (hx z) hf hb hw (by simp [addressing]) (by simp [addressing]) (addresses_idx hb z .readWrite)

theorem runsModify_idy {s : State} (hb : s.AtBoundary) (hw : s.mem.wf) {f : Byte → State → Byte × State}
    {effect : Byte → Arch → Byte × Arch} (hf : ModifiesAs f effect) {make : Byte → Instr}
    (hx : ∀ z, exec (make z) s = runReading (make z) (modifyTicks .idy f) [none, some z] s) : RunsModify s effect (.idy make) :=
  fun z => completes_modify (hx z) hf hb hw (by simp [addressing]) (by simp [addressing]) (addresses_idy hb z (by decide))

theorem runsModify_abs {s : State} (hb : s.AtBoundary) (hw : s.mem.wf) {f : Byte → State → Byte × State}
    {effect : Byte → Arch → Byte × Arch} (hf : ModifiesAs f effect) {make : Word → Instr}
    (hx : ∀ z, exec (make z) s = runReading (make z) (modifyTicks .abs f) [none, some (lo z), some (hi z)] s) : RunsModify s effect (.abs make) :=
  fun z => completes_modify (hx z) hf hb hw (by simp [addressing]) (by simp [addressing]) (addresses_abs hb z .readWrite)

theorem runsModify_abx {s : State} (hb : s.AtBoundary) (hw : s.mem.wf) {f : Byte → State → Byte × State}
    {effect : Byte → Arch → Byte × Arch} (hf : ModifiesAs f effect) {make : Word → Instr}
    (hx : ∀ z, exec (make z) s = runReading (make z) (modifyTicks .abx f) [none, some (lo z), some (hi z)] s) : RunsModify s effect (.abx make) :=
  fun z => completes_modify (hx z) hf hb hw (by simp [addressing]) (by simp [addressing]) (addresses_abx hb z (by decide))

theorem runsModify_aby {s : State} (hb : s.AtBoundary) (hw : s.mem.wf) {f : Byte → State → Byte × State}
    {effect : Byte → Arch → Byte × Arch} (hf : ModifiesAs f effect) {make : Word → Instr}
    (hx : ∀ z, exec (make z) s = runReading (make z) (modifyTicks .aby f) [none, some (lo z), some (hi z)] s) : RunsModify s effect (.aby make) :=
  fun z => completes_modify (hx z) hf hb hw (by simp [addressing]) (by simp [addressing]) (addresses_aby hb z (by decide))

end Sys2Proof.Machine
end

