-- ==== Sys2Proof/Tests/Slice0.lean ====
section
/-!
SUPPORT. Tests, and witnesses of the hypotheses of the statements. Every expected value comes from the spec: a vector V<n> or a trace
T<n> is that of 95_test_vectors.md, an opcode word is written out from the tables of 30_encoding.md, and the others name their rule.
-/
namespace Sys2Proof.Machine.Tests

/-! ### Helpers -/

/-- Bytes put in memory from an address on. -/
def poke (k : Word) (bytes : List Byte) (s : State) : State :=
  match bytes with
  | [] => s
  | b :: more => poke (k + 1) more { s with mem := s.mem.write k.toNat b }

/-- The start of a vector (95_test_vectors.md section 0): a boundary, the code at 0x0200, S = 0xFD, P.B = 1, all else 0. -/
def start (code : List Byte) : State := poke 0x0200 code { State.reset with p := 0x10, pc := 0x0200, addr := 0x0200 }

/-- The registers a vector gives, P as a PHP would push it. -/
structure Regs where
  a : Byte
  x : Byte
  y : Byte
  sp : Byte
  p : Byte
  pc : Word
  deriving DecidableEq, Repr

/-- One step gives these registers and bytes of memory, and is this number of ticks. -/
def gives (s : State) (cycles : Nat) (r : Regs) (cells : List (Word × Byte)) : Bool :=
  match step s with
  | .next t => (⟨t.a, t.x, t.y, t.sp, pushedStatus t.p, t.pc⟩ : Regs) == r && t == ticks cycles s &&
      cells.all fun c => t.readByte c.1 == c.2
  | .fault _ | .refused _ => false

/-- PC after one step. -/
def pcAfter (s : State) : Word :=
  match step s with
  | .next t => t.pc
  | .fault _ | .refused _ => 0

/-- A bus cycle of a trace: whether it is a write, its address, the byte on the data bus. -/
def busCycle (t : State) : Bool × Word × Byte := (t.rw, t.addr, if t.rw then t.dout else t.readByte t.addr)

/-- The bus cycles that the first ticks set up. -/
def trace : Nat → State → List (Bool × Word × Byte)
  | 0, _ => []
  | n + 1, s => busCycle (tick s) :: trace n (tick s)

/-! ### WellFormed: a branch offset fits a signed byte (30_encoding.md R83) -/

theorem test_offset_too_high_refused : wellFormed (.bne 128) = false := by decide
theorem test_offset_too_low_refused : wellFormed (.bne (-129)) = false := by decide
theorem test_offset_bounds_accepted : wellFormed (.bne 127) = true ∧ wellFormed (.bne (-128)) = true := by decide

/-! ### Decoding: a word of every family, written out from aaa, bbb, cc (30_encoding.md R72, R77, R85) -/

/-- aaa = 101, bbb = 011, cc = 01. -/
theorem test_decode_load : decode [0b10101101, 0x34, 0x12] = .ok (.ldaAbs 0x1234) [] := by decide
/-- 100 100 01. -/
theorem test_decode_store : decode [0b10010001, 0x80] = .ok (.staIdy 0x80) [] := by decide
/-- 101 010 10. -/
theorem test_decode_transfer : decode [0b10101010] = .ok .tax [] := by decide
/-- 010 110 00. -/
theorem test_decode_flag : decode [0b01011000] = .ok .cli [] := by decide
/-- 001 111 01. -/
theorem test_decode_logic : decode [0b00111101, 0xFF, 0x20] = .ok (.andAbx 0x20FF) [] := by decide
/-- 011 010 01. -/
theorem test_decode_add : decode [0b01101001, 0x50] = .ok (.adcImm 0x50) [] := by decide
/-- 111 000 01. -/
theorem test_decode_subtract : decode [0b11100001, 0x07] = .ok (.sbcIdx 0x07) [] := by decide
/-- 110 001 00. -/
theorem test_decode_compare : decode [0b11000100, 0x10] = .ok (.cpyZp 0x10) [] := by decide
/-- 001 001 00. -/
theorem test_decode_bit_test : decode [0b00100100, 0x10] = .ok (.bitZp 0x10) [] := by decide
/-- 111 101 10. -/
theorem test_decode_increment : decode [0b11110110, 0x10] = .ok (.incZpx 0x10) [] := by decide
/-- 000 010 10. -/
theorem test_decode_shift : decode [0b00001010] = .ok .aslA [] := by decide
/-- 101 101 10, indexed by Y. -/
theorem test_decode_zpy : decode [0b10110110, 0x10] = .ok (.ldxZpy 0x10) [] := by decide
/-- 011 010 00. -/
theorem test_decode_stack : decode [0b01101000] = .ok .pla [] := by decide
/-- 011 011 00. -/
theorem test_decode_jump : decode [0b01101100, 0xFF, 0x30] = .ok (.jmpInd 0x30FF) [] := by decide
/-- 001 000 00. -/
theorem test_decode_jsr : decode [0b00100000, 0x00, 0x07] = .ok (.jsr 0x0700) [] := by decide
/-- 110 100 00. -/
theorem test_decode_branch : decode [0b11010000, 0xFB] = .ok (.bne (-5)) [] := by decide
/-- 000 110 11. -/
theorem test_decode_rmw_undocumented : decode [0b00011011, 0x00, 0x20] = .ok (.sloAby 0x2000) [] := by decide
/-- 101 011 11. -/
theorem test_decode_lax : decode [0b10101111, 0x00, 0x30] = .ok (.laxAbs 0x3000) [] := by decide
/-- 110 010 11. -/
theorem test_decode_sbx : decode [0b11001011, 0x01] = .ok (.sbxImm 0x01) [] := by decide
/-- 100 111 00. -/
theorem test_decode_unstable : decode [0b10011100, 0xF0, 0x12] = .ok (.shyAbx 0x12F0) [] := by decide
/-- 011 111 00. -/
theorem test_decode_nop : decode [0b01111100, 0x34, 0x12] = .ok (.nopAbx7C 0x1234) [] := by decide
/-- 100 100 10. -/
theorem test_decode_jam : decode [0b10010010] = .ok .jam92 [] := by decide

theorem test_decode_needs_operand : (match decode [0xAD, 0x34] with | .ok _ _ => false | .reject _ => true) = true := by decide
theorem test_decode_table_word : decodeTableWord 24 0x1234AD = some (.ldaAbs 0x1234) := by decide
theorem test_with_fetch_word : step (State.reset.withFetchWord 16 0x80A9) =
    exec (.ldaImm 0x80) (State.reset.withFetchWord 16 0x80A9) := by rfl

/-! ### The vectors of 95_test_vectors.md section 2 -/

theorem test_v4_lda_zp_x_wraps_in_page_0 : gives (poke 0x0110 [0x99] (poke 0x0010 [0x33] { start [0xB5, 0xF0] with x := 0x20 })) 4
    ⟨0x33, 0x20, 0, 0xFD, 0x30, 0x0202⟩ [] = true := by decide

theorem test_v10_lda_zp_y_page_cross : gives (poke 0x3108 [0x49] (poke 0x0020 [0xF8, 0x30] { start [0xB1, 0x20] with y := 0x10 })) 6
    ⟨0x49, 0, 0x10, 0xFD, 0x30, 0x0202⟩ [] = true := by decide

theorem test_v11_ldx_zp_y : gives (poke 0x0015 [0xFF] { start [0xB6, 0x10] with y := 0x05 }) 4
    ⟨0, 0xFF, 0x05, 0xFD, 0xB0, 0x0202⟩ [] = true := by decide

theorem test_v12_ldy_abs_x : gives (poke 0x3001 [0x00] { start [0xBC, 0x00, 0x30] with x := 0x01 }) 4
    ⟨0, 0x01, 0, 0xFD, 0x32, 0x0203⟩ [] = true := by decide

theorem test_v14_sta_abs_x_no_cross_still_5_cycles : gives { start [0x9D, 0x00, 0x30] with a := 0x5B, x := 0x01 } 5
    ⟨0x5B, 0x01, 0, 0xFD, 0x30, 0x0203⟩ [(0x3001, 0x5B)] = true := by decide

theorem test_v15_sta_zp_y_6_cycles : gives (poke 0x0020 [0x00, 0x30] { start [0x91, 0x20] with a := 0x5C, y := 0x01 }) 6
    ⟨0x5C, 0, 0x01, 0xFD, 0x30, 0x0202⟩ [(0x3001, 0x5C)] = true := by decide

theorem test_v16_stx_zp_y_wraps : gives { start [0x96, 0xFF] with x := 0x77, y := 0x02 } 4
    ⟨0, 0x77, 0x02, 0xFD, 0x30, 0x0202⟩ [(0x0001, 0x77)] = true := by decide

theorem test_v17_sty_abs : gives { start [0x8C, 0x00, 0x30] with y := 0x88 } 4
    ⟨0, 0, 0x88, 0xFD, 0x30, 0x0203⟩ [(0x3000, 0x88)] = true := by decide

theorem test_v18_tax : gives { start [0xAA] with a := 0x80 } 2
    ⟨0x80, 0x80, 0, 0xFD, 0xB0, 0x0201⟩ [] = true := by decide

theorem test_v19_tay_zero : gives { start [0xA8] with a := 0x00, y := 0x12 } 2
    ⟨0, 0, 0, 0xFD, 0x32, 0x0201⟩ [] = true := by decide

theorem test_v20_txa : gives { start [0x8A] with x := 0x01 } 2
    ⟨0x01, 0x01, 0, 0xFD, 0x30, 0x0201⟩ [] = true := by decide

theorem test_v21_tya : gives { start [0x98] with y := 0xFE } 2
    ⟨0xFE, 0, 0xFE, 0xFD, 0xB0, 0x0201⟩ [] = true := by decide

theorem test_v22_tsx : gives { start [0xBA] with sp := 0x00 } 2
    ⟨0, 0, 0, 0, 0x32, 0x0201⟩ [] = true := by decide

theorem test_v23_txs_no_flags : gives { start [0x9A] with x := 0x00, p := 0x90 } 2
    ⟨0, 0, 0, 0, 0xB0, 0x0201⟩ [] = true := by decide

theorem test_v24_inx_wraps : gives { start [0xE8] with x := 0xFF } 2
    ⟨0, 0, 0, 0xFD, 0x32, 0x0201⟩ [] = true := by decide

theorem test_v25_iny : gives { start [0xC8] with y := 0x7F } 2
    ⟨0, 0, 0x80, 0xFD, 0xB0, 0x0201⟩ [] = true := by decide

theorem test_v26_dex_wraps : gives { start [0xCA] with x := 0x00 } 2
    ⟨0, 0xFF, 0, 0xFD, 0xB0, 0x0201⟩ [] = true := by decide

theorem test_v27_dey_to_zero : gives { start [0x88] with y := 0x01 } 2
    ⟨0, 0, 0, 0xFD, 0x32, 0x0201⟩ [] = true := by decide

theorem test_v28_sec : gives (start [0x38]) 2
    ⟨0, 0, 0, 0xFD, 0x31, 0x0201⟩ [] = true := by decide

theorem test_v29_clc : gives { start [0x18] with p := 0x11 } 2
    ⟨0, 0, 0, 0xFD, 0x30, 0x0201⟩ [] = true := by decide

theorem test_v30_sed : gives (start [0xF8]) 2
    ⟨0, 0, 0, 0xFD, 0x38, 0x0201⟩ [] = true := by decide

theorem test_v31_cld : gives { start [0xD8] with p := 0x18 } 2
    ⟨0, 0, 0, 0xFD, 0x30, 0x0201⟩ [] = true := by decide

theorem test_v32_sei : gives (start [0x78]) 2
    ⟨0, 0, 0, 0xFD, 0x34, 0x0201⟩ [] = true := by decide

theorem test_v33_cli : gives { start [0x58] with p := 0x14 } 2
    ⟨0, 0, 0, 0xFD, 0x30, 0x0201⟩ [] = true := by decide

theorem test_v34_clv : gives { start [0xB8] with p := 0x50 } 2
    ⟨0, 0, 0, 0xFD, 0x30, 0x0201⟩ [] = true := by decide

theorem test_v39_adc_0x80_0x80 : gives { start [0x69, 0x80] with a := 0x80 } 2
    ⟨0, 0, 0, 0xFD, 0x73, 0x0202⟩ [] = true := by decide

theorem test_v46_adc_decimal_58_46_1 : gives { start [0x69, 0x46] with a := 0x58, p := 0x19 } 2
    ⟨0x05, 0, 0, 0xFD, 0xF9, 0x0202⟩ [] = true := by decide

theorem test_v42_sbc_overflow : gives { start [0xE9, 0xB0] with a := 0x50, p := 0x11 } 2
    ⟨0xA0, 0, 0, 0xFD, 0xF0, 0x0202⟩ [] = true := by decide

theorem test_v49_sbc_decimal_00_01 : gives { start [0xE9, 0x01] with a := 0x00, p := 0x19 } 2
    ⟨0x99, 0, 0, 0xFD, 0xB8, 0x0202⟩ [] = true := by decide

theorem test_v51_and : gives { start [0x29, 0x0F] with a := 0xF3 } 2
    ⟨0x03, 0, 0, 0xFD, 0x30, 0x0202⟩ [] = true := by decide

theorem test_v52_ora : gives { start [0x09, 0x80] with a := 0x01 } 2
    ⟨0x81, 0, 0, 0xFD, 0xB0, 0x0202⟩ [] = true := by decide

theorem test_v53_eor_to_zero : gives { start [0x49, 0xAA] with a := 0xAA } 2
    ⟨0, 0, 0, 0xFD, 0x32, 0x0202⟩ [] = true := by decide

theorem test_v54_bit_source_example : gives (poke 0x0010 [0xC0] { start [0x24, 0x10] with a := 0x00 }) 3
    ⟨0, 0, 0, 0xFD, 0xF2, 0x0202⟩ [] = true := by decide

theorem test_v57_cmp_less : gives { start [0xC9, 0x41] with a := 0x40 } 2
    ⟨0x40, 0, 0, 0xFD, 0xB0, 0x0202⟩ [] = true := by decide

theorem test_v59_cmp_unsigned_0x80_vs_0x01 : gives { start [0xC9, 0x01] with a := 0x80 } 2
    ⟨0x80, 0, 0, 0xFD, 0x31, 0x0202⟩ [] = true := by decide

theorem test_v60_cpx : gives { start [0xE0, 0x10] with x := 0x10 } 2
    ⟨0, 0x10, 0, 0xFD, 0x33, 0x0202⟩ [] = true := by decide

theorem test_v61_cpy : gives { start [0xC0, 0xFF] with y := 0x00 } 2
    ⟨0, 0, 0, 0xFD, 0x30, 0x0202⟩ [] = true := by decide

theorem test_v62_asl_a : gives { start [0x0A] with a := 0x80 } 2
    ⟨0, 0, 0, 0xFD, 0x33, 0x0201⟩ [] = true := by decide

theorem test_v63_lsr_a : gives { start [0x4A] with a := 0x01 } 2
    ⟨0, 0, 0, 0xFD, 0x33, 0x0201⟩ [] = true := by decide

theorem test_v64_rol_a_with_c : gives { start [0x2A] with a := 0x80, p := 0x11 } 2
    ⟨0x01, 0, 0, 0xFD, 0x31, 0x0201⟩ [] = true := by decide

theorem test_v65_ror_a_with_c : gives { start [0x6A] with a := 0x01, p := 0x11 } 2
    ⟨0x80, 0, 0, 0xFD, 0xB1, 0x0201⟩ [] = true := by decide

theorem test_v66_inc_zp_wraps : gives (poke 0x0010 [0xFF] (start [0xE6, 0x10])) 5
    ⟨0, 0, 0, 0xFD, 0x32, 0x0202⟩ [(0x0010, 0)] = true := by decide

theorem test_v67_dec_abs_x_7_cycles : gives (poke 0x3001 [0x00] { start [0xDE, 0x00, 0x30] with x := 0x01 }) 7
    ⟨0, 0x01, 0, 0xFD, 0xB0, 0x0203⟩ [(0x3001, 0xFF)] = true := by decide

theorem test_v68_asl_zp : gives (poke 0x0010 [0xC1] (start [0x06, 0x10])) 5
    ⟨0, 0, 0, 0xFD, 0xB1, 0x0202⟩ [(0x0010, 0x82)] = true := by decide

theorem test_v69_lsr_abs : gives (poke 0x3000 [0x03] (start [0x4E, 0x00, 0x30])) 6
    ⟨0, 0, 0, 0xFD, 0x31, 0x0203⟩ [(0x3000, 0x01)] = true := by decide

theorem test_v70_rol_zp_x : gives (poke 0x0011 [0x40] { start [0x36, 0x10] with x := 0x01, p := 0x11 }) 6
    ⟨0, 0x01, 0, 0xFD, 0xB0, 0x0202⟩ [(0x0011, 0x81)] = true := by decide

theorem test_v71_ror_abs_x : gives (poke 0x3100 [0x01] { start [0x7E, 0xFF, 0x30] with x := 0x01 }) 7
    ⟨0, 0x01, 0, 0xFD, 0x33, 0x0203⟩ [(0x3100, 0)] = true := by decide

theorem test_v73_pha_at_s_0_wraps : gives { start [0x48] with a := 0x43, sp := 0x00 } 3
    ⟨0x43, 0, 0, 0xFF, 0x30, 0x0201⟩ [(0x0100, 0x43)] = true := by decide

theorem test_v74_php : gives { start [0x08] with p := 0x14 } 3
    ⟨0, 0, 0, 0xFC, 0x34, 0x0201⟩ [(0x01FD, 0x34)] = true := by decide

theorem test_v76_pla_at_s_0xff_wraps : gives (poke 0x0100 [0x00] { start [0x68] with sp := 0xFF }) 4
    ⟨0, 0, 0, 0, 0x32, 0x0201⟩ [] = true := by decide

theorem test_v77_plp_all_ones : gives (poke 0x01FD [0xFF] { start [0x28] with sp := 0xFC }) 4
    ⟨0, 0, 0, 0xFD, 0xFF, 0x0201⟩ [] = true := by decide

theorem test_v78_jmp_abs : gives (start [0x4C, 0x00, 0xC0]) 3
    ⟨0, 0, 0, 0xFD, 0x30, 0xC000⟩ [] = true := by decide

theorem test_v79_jmp_ind_page_bug : gives (poke 0x3100 [0x40] (poke 0x3000 [0x50] (poke 0x30FF [0x80] (start [0x6C, 0xFF, 0x30])))) 5
    ⟨0, 0, 0, 0xFD, 0x30, 0x5080⟩ [] = true := by decide

theorem test_v80_jsr : gives { start [0x20, 0x00, 0x07] with sp := 0xFF } 6
    ⟨0, 0, 0, 0xFD, 0x30, 0x0700⟩ [(0x01FF, 0x02), (0x01FE, 0x02)] = true := by decide

theorem test_v81_rts : gives (poke 0x01FF [0x06] (poke 0x01FE [0x02] { start [0x60] with sp := 0xFD })) 6
    ⟨0, 0, 0, 0xFF, 0x30, 0x0603⟩ [] = true := by decide

theorem test_v82_rti : gives (poke 0x01FD [0x12] (poke 0x01FC [0x34] (poke 0x01FB [0x20] { start [0x40] with sp := 0xFA }))) 6
    ⟨0, 0, 0, 0xFD, 0x30, 0x1234⟩ [] = true := by decide

theorem test_v83_brk : gives (poke 0xFFFE [0x00, 0x90] { start [0x00, 0xEA] with sp := 0xFF }) 7
    ⟨0, 0, 0, 0xFC, 0x34, 0x9000⟩ [(0x01FF, 0x02), (0x01FE, 0x02), (0x01FD, 0x30)] = true := by decide

theorem test_v84_bpl_taken_same_page : gives (start [0x10, 0x02]) 3
    ⟨0, 0, 0, 0xFD, 0x30, 0x0204⟩ [] = true := by decide

theorem test_v85_bmi_not_taken : gives (start [0x30, 0x02]) 2
    ⟨0, 0, 0, 0xFD, 0x30, 0x0202⟩ [] = true := by decide

theorem test_v86_bvc_minus_2_loops_on_itself : gives (start [0x50, 0xFE]) 3
    ⟨0, 0, 0, 0xFD, 0x30, 0x0200⟩ [] = true := by decide

theorem test_v87_bcc_minus_128_page_cross : gives (start [0x90, 0x80]) 4
    ⟨0, 0, 0, 0xFD, 0x30, 0x0182⟩ [] = true := by decide

theorem test_v88_beq_offset_0_taken : gives { start [0xF0, 0x00] with p := 0x12 } 3
    ⟨0, 0, 0, 0xFD, 0x32, 0x0202⟩ [] = true := by decide

theorem test_v89_slo_zp : gives (poke 0x0010 [0x80] { start [0x07, 0x10] with a := 0x01 }) 5
    ⟨0x01, 0, 0, 0xFD, 0x31, 0x0202⟩ [(0x0010, 0)] = true := by decide

theorem test_v90_rla_zp : gives (poke 0x0010 [0x40] { start [0x27, 0x10] with a := 0xFF, p := 0x11 }) 5
    ⟨0x81, 0, 0, 0xFD, 0xB0, 0x0202⟩ [(0x0010, 0x81)] = true := by decide

theorem test_v91_sre_zp : gives (poke 0x0010 [0x03] { start [0x47, 0x10] with a := 0x0F }) 5
    ⟨0x0E, 0, 0, 0xFD, 0x31, 0x0202⟩ [(0x0010, 0x01)] = true := by decide

theorem test_v92_rra_zp : gives (poke 0x0010 [0x03] { start [0x67, 0x10] with a := 0x10 }) 5
    ⟨0x12, 0, 0, 0xFD, 0x30, 0x0202⟩ [(0x0010, 0x01)] = true := by decide

theorem test_v93_sax_zp : gives { start [0x87, 0x10] with a := 0xF0, x := 0x3C } 3
    ⟨0xF0, 0x3C, 0, 0xFD, 0x30, 0x0202⟩ [(0x0010, 0x30)] = true := by decide

theorem test_v94_lax_abs : gives (poke 0x3000 [0x81] (start [0xAF, 0x00, 0x30])) 4
    ⟨0x81, 0x81, 0, 0xFD, 0xB0, 0x0203⟩ [] = true := by decide

theorem test_v95_dcp_zp : gives (poke 0x0010 [0x41] { start [0xC7, 0x10] with a := 0x40 }) 5
    ⟨0x40, 0, 0, 0xFD, 0x33, 0x0202⟩ [(0x0010, 0x40)] = true := by decide

theorem test_v96_isb_zp : gives (poke 0x0010 [0x0F] { start [0xE7, 0x10] with a := 0x10, p := 0x11 }) 5
    ⟨0, 0, 0, 0xFD, 0x33, 0x0202⟩ [(0x0010, 0x10)] = true := by decide

theorem test_v97_anc_imm : gives { start [0x0B, 0x80] with a := 0xFF } 2
    ⟨0x80, 0, 0, 0xFD, 0xB1, 0x0202⟩ [] = true := by decide

theorem test_v98_asr_imm : gives { start [0x4B, 0x03] with a := 0xFF } 2
    ⟨0x01, 0, 0, 0xFD, 0x31, 0x0202⟩ [] = true := by decide

theorem test_v99_arr_imm_binary : gives { start [0x6B, 0xFF] with a := 0xC0, p := 0x11 } 2
    ⟨0xE0, 0, 0, 0xFD, 0xB1, 0x0202⟩ [] = true := by decide

theorem test_v103_sbx_imm : gives { start [0xCB, 0x01] with a := 0xF0, x := 0x3F } 2
    ⟨0xF0, 0x2F, 0, 0xFD, 0x31, 0x0202⟩ [] = true := by decide

theorem test_v108_las_abs_y : gives (poke 0x1234 [0x3F] { start [0xBB, 0x34, 0x12] with sp := 0xF0 }) 4
    ⟨0x30, 0x30, 0, 0x30, 0x30, 0x0203⟩ [] = true := by decide

theorem test_v109_usbc_0xeb : gives { start [0xEB, 0x03] with a := 0x05, p := 0x11 } 2
    ⟨0x02, 0, 0, 0xFD, 0x31, 0x0202⟩ [] = true := by decide

theorem test_v110_nop_abs_x_page_cross : gives { start [0x3C, 0x34, 0x12] with x := 0xD0 } 5
    ⟨0, 0xD0, 0, 0xFD, 0x30, 0x0203⟩ [] = true := by decide

theorem test_v111_nop_imm_0x80 : gives (start [0x80, 0xFF]) 2
    ⟨0, 0, 0, 0xFD, 0x30, 0x0202⟩ [] = true := by decide

theorem test_v112_nop_implied_0x1a : gives (start [0x1A]) 2
    ⟨0, 0, 0, 0xFD, 0x30, 0x0201⟩ [] = true := by decide

theorem test_v114_nop_0xea : gives (start [0xEA]) 2
    ⟨0, 0, 0, 0xFD, 0x30, 0x0201⟩ [] = true := by decide

/-! ### Forms the vectors leave out: the rules of 44_control_stack.md R245, R247, R248 and 45_undocumented.md R272-R279 -/

theorem test_bvs_taken : gives { start [0x70, 0x10] with p := 0x50 } 3 ⟨0, 0, 0, 0xFD, 0x70, 0x0212⟩ [] = true := by decide
theorem test_bcs_not_taken : gives (start [0xB0, 0x10]) 2 ⟨0, 0, 0, 0xFD, 0x30, 0x0202⟩ [] = true := by decide
theorem test_bne_taken_forward : gives (start [0xD0, 0x7F]) 3 ⟨0, 0, 0, 0xFD, 0x30, 0x0281⟩ [] = true := by decide
theorem test_ane_goes_on : pcAfter (start [0x8B, 0xFF]) = 0x0202 := by rfl
theorem test_lxa_goes_on : pcAfter (start [0xAB, 0xFF]) = 0x0202 := by rfl
theorem test_sha_goes_on : pcAfter (start [0x9F, 0x00, 0x12]) = 0x0203 := by rfl
theorem test_shs_goes_on : pcAfter (start [0x9B, 0x00, 0x04]) = 0x0203 := by rfl
theorem test_adc_of_no_bcd_number_goes_on : pcAfter { start [0x69, 0x0A] with p := 0x18 } = 0x0202 := by rfl

/-- R152: t = 0x11, r = 0x88, no correction of either digit. -/
theorem test_arr_decimal : gives { start [0x6B, 0x99] with a := 0x55, p := 0x19 } 2
    ⟨0x88, 0, 0, 0xFD, 0xB8, 0x0202⟩ [] = true := by decide

/-- R152: t = 0x55, r = 0x2A: both digits are corrected, to 0 and to 8. -/
theorem test_arr_decimal_corrects : gives { start [0x6B, 0x55] with a := 0x55, p := 0x18 } 2
    ⟨0x80, 0, 0, 0xFD, 0x79, 0x0202⟩ [] = true := by decide

/-! ### Bus traces (95_test_vectors.md section 3) -/

theorem test_t1_inc : trace 5 (poke 0x0010 [0xFF] (start [0xE6, 0x10])) =
    [(false, 0x0201, 0x10), (false, 0x0010, 0xFF), (true, 0x0010, 0xFF), (true, 0x0010, 0), (false, 0x0202, 0)] := by decide

theorem test_t2_lda_page_cross :
    trace 5 (poke 0x3010 [0x99] (poke 0x3110 [0x45] { start [0xBD, 0xF0, 0x30] with x := 0x20 })) =
    [(false, 0x0201, 0xF0), (false, 0x0202, 0x30), (false, 0x3010, 0x99), (false, 0x3110, 0x45), (false, 0x0203, 0)] := by decide

theorem test_t4_jsr : trace 6 { start [0x20, 0x00, 0x07] with sp := 0xFF } =
    [(false, 0x0201, 0), (false, 0x01FF, 0), (true, 0x01FF, 0x02), (true, 0x01FE, 0x02), (false, 0x0202, 0x07),
      (false, 0x0700, 0)] := by decide

theorem test_t5_rts : trace 6 (poke 0x01FE [0x02, 0x06] (start [0x60])) =
    [(false, 0x0201, 0), (false, 0x01FD, 0), (false, 0x01FE, 0x02), (false, 0x01FF, 0x06), (false, 0x0602, 0),
      (false, 0x0603, 0)] := by decide

theorem test_t6_brk : trace 7 (poke 0xFFFE [0x00, 0x90] { start [0x00, 0xEA] with sp := 0xFF }) =
    [(false, 0x0201, 0xEA), (true, 0x01FF, 0x02), (true, 0x01FE, 0x02), (true, 0x01FD, 0x30), (false, 0xFFFE, 0),
      (false, 0xFFFF, 0x90), (false, 0x9000, 0)] := by decide

/-- A boundary with the code at this address. -/
def startAt (k : Word) (code : List Byte) : State := poke k code { State.reset with p := 0x10, pc := k, addr := k }

theorem test_t8_beq_page_cross : trace 4 { startAt 0x20FD [0xF0, 0x04] with p := 0x12 } =
    [(false, 0x20FE, 0x04), (false, 0x20FF, 0), (false, 0x2003, 0), (false, 0x2103, 0)] := by decide

/-- RDY asserted on these ticks, counted from 1. -/
def rdyOn (ts : List Nat) (n : Nat) : List Lines :=
  (List.range n).map fun k => { Lines.idle with rdy := ts.contains (k + 1) }

theorem test_t9_rdy_stalls_a_read : trace 5 { poke 0x0010 [0x99] (start [0xA5, 0x10]) with lines := rdyOn [2, 3] 5 } =
    [(false, 0x0201, 0x10), (false, 0x0201, 0x10), (false, 0x0201, 0x10), (false, 0x0010, 0x99), (false, 0x0202, 0)] := by decide

theorem test_t10_rdy_stalls_no_write : trace 3 { start [0x85, 0x10] with a := 0x12, lines := rdyOn [3] 3 } =
    [(false, 0x0201, 0x10), (true, 0x0010, 0x12), (false, 0x0202, 0)] := by decide

/-! ### Reset, interrupts, JAM (95_test_vectors.md section 4) -/

/-- The reset sequence from construction (I5) comes to `State.reset`. -/
theorem test_construction_resets_to_reset : ticks 7 (State.construct PowerOn.zero [] []) = State.reset := by decide

theorem test_i5_reset_then_jam :
    trace 9 (State.construct PowerOn.zero [(0x0200, 0x02), (0xFFFD, 0x02)] []) =
    [(false, 0x0000, 0), (false, 0x0100, 0), (false, 0x01FF, 0), (false, 0x01FE, 0), (false, 0xFFFC, 0), (false, 0xFFFD, 0x02),
      (false, 0x0200, 0x02), (false, 0x0201, 0), (false, 0xFFFF, 0)] := by decide

/-- R42: RDY asserted in the first two ticks of a new core stalls the second alone. -/
theorem test_rdy_at_construction :
    trace 3 (State.construct PowerOn.zero [(0xFFFD, 0x02)] (rdyOn [1, 2] 2)) =
      [(false, 0x0000, 0), (false, 0x0000, 0), (false, 0x0100, 0)] ∧
    (ticks 1 (State.construct PowerOn.zero [] (rdyOn [1] 1))).brk.res = true := by decide

/-- R325: a tick in the JAM state outputs 0xFFFF and 0xFF, with RDY asserted too. -/
theorem test_jam_pins_under_rdy :
    let t := coreTick { din := 0x55, lines := { Lines.idle with rdy := true } } (ticks 1 (start [0x02]))
    (t.addr, t.dout, t.rw, t.sync, t.pc) = (0xFFFF, 0xFF, false, false, 0x0201) := by decide

/-- The boundary of I3: IRQ and NMI are both recognised, the vectors in memory. -/
def bothPending : State :=
  { poke 0xFFFA [0x00, 0x03, 0, 0, 0x00, 0x04] (startAt 0x0204 [0x4C, 0x04, 0x02]) with
    p := 0x90, sp := 0xFF, intr := { irqPip := 4, nmiPip := 4, nmiPrev := true, resLatch := false } }

theorem test_i3_nmi_over_irq : trace 7 bothPending =
    [(false, 0x0204, 0x4C), (true, 0x01FF, 0x02), (true, 0x01FE, 0x04), (true, 0x01FD, 0xA0), (false, 0xFFFA, 0),
      (false, 0xFFFB, 0x03), (false, 0x0300, 0)] := by decide

/-- The boundary of I4: a BRK opcode is read while an IRQ is recognised. -/
def brkAndIrq : State :=
  { poke 0xFFFE [0x00, 0x03] (startAt 0x0205 [0x00, 0xEA]) with
    p := 0x90, sp := 0xFF, intr := { irqPip := 4, nmiPip := 0, nmiPrev := false, resLatch := false } }

theorem test_i4_irq_at_brk : gives brkAndIrq 7 ⟨0, 0, 0, 0xFC, 0xB4, 0x0300⟩
    [(0x01FF, 0x02), (0x01FE, 0x05), (0x01FD, 0xA0)] = true := by decide

/-! ### Witnesses: states and operands that meet the hypotheses of the statements -/

/-- A boundary in the middle of a program: memory, registers and lines that are not those of reset. -/
def scene : State :=
  { start [0x90, 0x80] with
    a := 0x45, x := 0x80, y := 0xFF, sp := 0x01
    lines := [{ Lines.idle with irq := true }, { Lines.idle with nmi := true }, Lines.idle] }

/-- For every statement whose one hypothesis is `s.AtBoundary`: the loads, stores, transfers, flag, logic, add, subtract, compare,
increment, shift, push, pull, jump, return, BRK, NOP and undocumented instructions. -/
theorem witness_atBoundary : scene.AtBoundary := ⟨rfl, rfl, rfl, rfl⟩

/-- Boundary and canonical memory: MemoryIncrements, MemoryShifts, CombinedModifyInstructions, SubroutineCall. -/
theorem witness_atBoundary_wf : scene.AtBoundary ∧ scene.mem.wf := ⟨⟨rfl, rfl, rfl, rfl⟩, by decide⟩

/-- AdditionInstruction, SubtractionInstruction, ImmediateCombinedInstructions: a state for each case, binary, BCD, and decimal with an
operand that is no BCD number. -/
theorem witness_decimal_cases :
    scene.arch.flag .d = false ∧ ({ scene with p := 0x18 } : State).arch.flag .d = true ∧
      ({ scene with p := 0x18 } : State).AtBoundary ∧ (isBcd scene.a && isBcd 0x99) = true ∧
      (isBcd scene.a && isBcd 0x9A) = false := ⟨by decide, by decide, ⟨rfl, rfl, rfl, rfl⟩, by decide, by decide⟩

/-- DecodeOfEncode, at the bounds of a branch offset. -/
theorem witness_wellFormed : wellFormed (.beq (-128)) = true ∧ wellFormed (.beq 127) = true ∧ wellFormed (.ldaAbs 0xFFFF) = true := by
  decide

/-- EncodeOfDecode. -/
theorem witness_decodes : decode [0xD0, 0x80, 0x33] = .ok (.bne (-128)) [0x33] := by decide

/-- StepRunsTheDecodedInstruction. -/
theorem witness_step_decodes : scene.AtBoundary ∧ recognises scene = false ∧
    decode [scene.readByte scene.pc, scene.readByte (scene.pc + 1), scene.readByte (scene.pc + 2)] = .ok (.bcc (-128)) [0] :=
  ⟨⟨rfl, rfl, rfl, rfl⟩, by decide, by decide⟩

/-- StepTakesRecognisedInterrupts, InterruptEntry and SequenceEffects: an IRQ, an NMI over an IRQ. -/
theorem witness_recognised : brkAndIrq.AtBoundary ∧ (recognised brkAndIrq).nmi = false ∧ recognises brkAndIrq = true ∧
    bothPending.AtBoundary ∧ (recognised bothPending).nmi = true ∧ recognises bothPending = true ∧
    (recognised brkAndIrq).res = false ∧ (recognised bothPending).res = false :=
  ⟨⟨rfl, rfl, rfl, rfl⟩, by decide, by decide, ⟨rfl, rfl, rfl, rfl⟩, by decide, by decide, by decide, by decide⟩

/-- SequenceEffects, the case of BRK. -/
theorem witness_brk : scene.AtBoundary ∧ ∃ t, exec .brk scene = .next t := ⟨⟨rfl, rfl, rfl, rfl⟩, _, rfl⟩

/-- ResetSequenceValues, and SequenceEffects for RESET: construction, and RES sampled at the boundary itself (R106). -/
theorem witness_reset :
    (State.construct PowerOn.zero [] []).AtBoundary ∧ (recognised (State.construct PowerOn.zero [] [])).res = true ∧
      ({ scene with lines := [{ Lines.idle with res := true }] } : State).AtBoundary ∧
      (recognised { scene with lines := [{ Lines.idle with res := true }] }).res = true :=
  ⟨⟨rfl, rfl, rfl, rfl⟩, by decide, ⟨rfl, rfl, rfl, rfl⟩, by decide⟩

/-- CycleCounts: a branch, and a read that crosses a page or just does not (0xFF + 1, 0xFE + 1). -/
theorem witness_cycleCounts : scene.AtBoundary ∧ scene.Unstalled ∧ recognises scene = false ∧ isJam (fetched scene) = false ∧
    cyclesOf (fetched scene) scene = 4 ∧
    (let s : State := { startAt 0x0400 [0xBD, 0xFF, 0x20] with x := 1 }
     isJam (fetched s) = false ∧ cyclesOf (fetched s) s = 5) ∧
    (let s : State := { startAt 0x0400 [0xBD, 0xFE, 0x20] with x := 1 }
     isJam (fetched s) = false ∧ cyclesOf (fetched s) s = 4) :=
  ⟨⟨rfl, rfl, rfl, rfl⟩, by unfold State.Unstalled; decide, by decide, by decide, by decide, by decide, by decide⟩

/-- The JAM state after 0x92 at 0x0200 (R325). -/
def jammed : State := { scene with ir := 0x491, addr := 0xFFFF, sync := false, dout := 0xFF, pc := 0x0201 }

/-- JamIsIdempotent and RdyStall: the state every tick there leaves, and the state one tick into a JAM, whose address pins hold PC. -/
theorem witness_inJam : jammed.inJam = true ∧ jammed.rw = false ∧ (ticks 1 (start [0x92])).inJam = true ∧
    (ticks 1 (start [0x92])).addr = 0x0201 := by decide

/-- StepKeepsInvariant, from a boundary and from the JAM state. -/
theorem witness_inv : scene.Inv ∧ jammed.Inv ∧ (∃ t, step scene = .next t) ∧ ∃ t, step jammed = .next t :=
  ⟨⟨by decide, by decide, by decide, .inl ⟨rfl, rfl, rfl, rfl⟩⟩,
    ⟨by decide, by decide, by decide, .inr ⟨by decide, rfl, rfl, rfl, rfl⟩⟩, ⟨_, rfl⟩, _, rfl⟩

/-- SubroutineCall: the high byte of the operand where no push lands, where the first lands, where the second lands. -/
theorem witness_jsr :
    (let s := start [0x20, 0x00, 0x07]
     s.AtBoundary ∧ s.pc + 2 ≠ stackAddr s.sp ∧ s.pc + 2 ≠ stackAddr (s.sp - 1)) ∧
    (let s : State := { startAt 0x0150 [0x20, 0x00, 0x07] with sp := 0x52 }
     s.AtBoundary ∧ s.mem.wf ∧ s.pc + 2 = stackAddr s.sp) ∧
    (let s : State := { startAt 0x0150 [0x20, 0x00, 0x07] with sp := 0x53 }
     s.AtBoundary ∧ s.mem.wf ∧ s.pc + 2 ≠ stackAddr s.sp ∧ s.pc + 2 = stackAddr (s.sp - 1)) :=
  ⟨⟨⟨rfl, rfl, rfl, rfl⟩, by decide, by decide⟩, ⟨⟨rfl, rfl, rfl, rfl⟩, by decide, by decide⟩,
    ⟨rfl, rfl, rfl, rfl⟩, by decide, by decide, by decide⟩

/-- A JSR over its own operand goes where the bus says (R236): here to the byte it pushed. -/
theorem test_jsr_over_its_operand : pcAfter { startAt 0x0150 [0x20, 0x00, 0x07] with sp := 0x52 } = 0x0100 := by decide

/-- BranchInstructions, at the bounds of the offset, taken and not. -/
theorem witness_branch : scene.AtBoundary ∧ (-128 : Int) ≤ -128 ∧ (127 : Int) ≤ 127 ∧ scene.flag .c = false ∧
    ({ scene with p := 0x11 } : State).AtBoundary ∧ ({ scene with p := 0x11 } : State).flag .c = true :=
  ⟨⟨rfl, rfl, rfl, rfl⟩, by decide, by decide, by decide, ⟨rfl, rfl, rfl, rfl⟩, by decide⟩

/-- JamInstruction. -/
theorem witness_jam : (start [0x02]).AtBoundary ∧ (Config.jamResExits = true → (start [0x02]).NoReset) :=
  ⟨⟨rfl, rfl, rfl, rfl⟩, fun _ => by unfold State.NoReset; decide⟩

/-- DecimalArithmetic, at the bounds. -/
theorem witness_bcd : isBcd 0x00 = true ∧ isBcd 0x99 = true := by decide

/-- RegisterWriters and InterruptAndDecimalFlagWriters: an instruction on no list, and one on the last. -/
theorem witness_writers : (∃ t, exec .nopEA scene = .next t) ∧ (∃ t, exec .plp scene = .next t) ∧ scene.AtBoundary :=
  ⟨⟨_, rfl⟩, ⟨_, rfl⟩, rfl, rfl, rfl, rfl⟩

/-- NonStoringInstructions, both access kinds. -/
theorem witness_nonStoring : accessOf .tax = .none ∧ Instr.tax.opcode ≠ 0x00 ∧ Instr.tax.opcode ≠ 0x20 ∧
    (∃ t, exec .tax scene = .next t) ∧ accessOf (.ldaZp 0xFF) = .read ∧ Instr.opcode (.ldaZp 0xFF) ≠ 0x00 ∧
    Instr.opcode (.ldaZp 0xFF) ≠ 0x20 ∧ ∃ t, exec (.ldaZp 0xFF) scene = .next t :=
  ⟨by decide, by decide, by decide, ⟨_, rfl⟩, by decide, by decide, by decide, _, rfl⟩

/-- StoringInstructions, both access kinds. -/
theorem witness_storing : scene.AtBoundary ∧ scene.mem.wf ∧ accessOf .pha = .write ∧ (∃ t, exec .pha scene = .next t) ∧
    accessOf (.incAbx 0xFFFF) = .readWrite ∧ ∃ t, exec (.incAbx 0xFFFF) scene = .next t :=
  ⟨⟨rfl, rfl, rfl, rfl⟩, by decide, by decide, ⟨_, rfl⟩, by decide, _, rfl⟩

/-- MemoryReadsLastWrite. -/
theorem witness_memory : Memory.wf [(0, 1), (0xFFFF, 0x80)] ∧
    ∀ k : Word, Memory.read [(0, 1), (0xFFFF, 0x80)] k.toNat = Memory.read [(0, 1), (0xFFFF, 0x80)] k.toNat :=
  ⟨by decide, fun _ => rfl⟩

/-- RdyStall, each of its cases. -/
theorem witness_rdy : ({ Lines.idle with rdy := true } : Lines).rdy = true ∧ scene.rw = false ∧ scene.inJam = false ∧
    scene.isNew = false ∧ (State.construct PowerOn.zero [] []).isNew = true ∧
    (ticks 2 (start [0x85, 0x10])).rw = true := by decide

/-- ModifyBusCycles. -/
theorem witness_modify : let s := poke 0x0010 [0xFF] (start [0xE6, 0x10])
    s.AtBoundary ∧ s.mem.wf ∧ s.Unstalled ∧ recognises s = false ∧ accessOf (fetched s) = .readWrite :=
  ⟨⟨rfl, rfl, rfl, rfl⟩, by decide, by unfold State.Unstalled; decide, by decide, by decide⟩

/-- The hypotheses of IrqRecognitionTick. -/
def Recognisable (s : State) : Prop :=
  s.AtBoundary ∧ s.Unstalled ∧ s.intr.irqPip.getLsbD 0 = false ∧
    (recognises s = false → isJam (fetched s) = false ∧ branchesInPage (fetched s) s = false)

/-- IrqRecognitionTick: an instruction of two ticks with each line asserted and not, a branch that crosses a page, a branch not taken, an
interrupt sequence. -/
theorem witness_recognition :
    Recognisable { scene with mem := [(0x0200, 0xEA)] } ∧ Recognisable { start [0xEA] with lines := [{ Lines.idle with nmi := true }] } ∧
      Recognisable (start [0xEA]) ∧ Recognisable scene ∧ Recognisable { start [0x90, 0x05] with p := 0x11 } ∧
      Recognisable brkAndIrq :=
  ⟨⟨⟨rfl, rfl, rfl, rfl⟩, by unfold State.Unstalled; decide, by decide⟩, ⟨⟨rfl, rfl, rfl, rfl⟩, by unfold State.Unstalled; decide, by decide⟩,
    ⟨⟨rfl, rfl, rfl, rfl⟩, by unfold State.Unstalled; decide, by decide⟩, ⟨⟨rfl, rfl, rfl, rfl⟩, by unfold State.Unstalled; decide, by decide⟩,
    ⟨⟨rfl, rfl, rfl, rfl⟩, by unfold State.Unstalled; decide, by decide⟩, ⟨rfl, rfl, rfl, rfl⟩, by unfold State.Unstalled; decide, by decide⟩

/-- IRQ held for ten ticks. -/
def held (p : Byte) : State :=
  { start [0x58, 0xEA] with p := p, lines := List.replicate 10 { Lines.idle with irq := true } }

/-- CliDelaysIrq, with P.I = 1 and P.I = 0: its hypotheses hold, and the instructions and the NOP after them run. -/
theorem witness_mask : ∀ p ∈ ([0x14, 0x10] : List Byte), (held p).AtBoundary ∧ (held p).Unstalled ∧ (held p).intr.irqPip = 0 ∧
    10 ≤ (held p).lines.length ∧ (∀ l ∈ (held p).lines, l.irq = true) ∧ (held p).flag .i = (p == 0x14) ∧
    ∀ i ∈ ([.cli, .sei, .plp, .rti, .brk] : List Instr), ∃ t, exec i (held p) = .next t ∧ ∃ u, exec .nopEA t = .next u := by
  intro p hp
  simp only [List.mem_cons, List.not_mem_nil, or_false] at hp
  rcases hp with rfl | rfl
  all_goals
    refine ⟨⟨rfl, rfl, rfl, rfl⟩, by unfold State.Unstalled; decide, rfl, by decide, by decide, by decide, ?_⟩
    simp only [List.forall_mem_cons, List.not_mem_nil, false_implies, implies_true, and_true]
    exact ⟨⟨_, rfl, _, rfl⟩, ⟨_, rfl, _, rfl⟩, ⟨_, rfl, _, rfl⟩, ⟨_, rfl, _, rfl⟩, _, rfl, _, rfl⟩

/-- CliDelaysIrq, an NMI sequence under a held IRQ. -/
theorem witness_mask_sequence :
    let s := { held 0x10 with intr := { (held 0x10).intr with nmiPip := 4, nmiPrev := true } }
    s.AtBoundary ∧ s.Unstalled ∧ s.intr.irqPip = 0 ∧ 10 ≤ s.lines.length ∧ (∀ l ∈ s.lines, l.irq = true) ∧ recognises s = true :=
  ⟨⟨rfl, rfl, rfl, rfl⟩, by unfold State.Unstalled; decide, rfl, by decide, by decide, by decide⟩

/-- A boundary whose next three ticks see these levels of NMI, the second IRQ as well. -/
def nmiOn (l0 l1 l2 : Bool) : State :=
  { start [0x90, 0x7D] with
    lines := [{ Lines.idle with nmi := l0 }, { Lines.idle with nmi := l1, irq := true }, { Lines.idle with nmi := l2 }] }

/-- BranchQuirk: for every level of NMI, a taken BCC to the first byte of its page (0x0202 - 2 = 0x0200) and out of it
(0x0202 - 3 = 0x01FF). -/
theorem witness_branchQuirk : ∀ l0 l1 l2 : Bool, let s := nmiOn l0 l1 l2
    s.AtBoundary ∧ s.Unstalled ∧ s.intr.irqPip.getLsbD 0 = false ∧ s.flag .c = false ∧ s.intr.nmiPip = 0 ∧ s.intr.nmiPrev = false ∧
      (samePage (branchTarget (-2) s) (s.pc + 2) = true ∧ ∃ t, exec (.bcc (-2)) s = .next t) ∧
      (samePage (branchTarget (-3) s) (s.pc + 2) = false ∧ ∃ t, exec (.bcc (-3)) s = .next t) := by
  intro l0 l1 l2
  refine ⟨⟨rfl, rfl, rfl, rfl⟩, ?_, ?_, ?_, ?_, ?_, ⟨?_, _, rfl⟩, ?_, _, rfl⟩
  · simp [nmiOn, State.Unstalled, Lines.idle]
  all_goals cases l0 <;> cases l1 <;> cases l2 <;> decide

/-- BranchQuirk, a state for each of the eight conditions. -/
theorem witness_branch_conditions :
    ∀ q ∈ ([(.n, false), (.n, true), (.v, false), (.v, true), (.c, false), (.c, true), (.z, false), (.z, true)] : List (Flag × Bool)),
      (nmiOn false true true |>.withFlag q.1 q.2).flag q.1 = q.2 := by decide

end Sys2Proof.Machine.Tests
end

section
/-!
SUPPORT. What a run of ticks keeps: a tick as its action between a change of the environment and the platform's part, the parts of the
state that an action may write, and the invariants of a run.
-/
namespace Sys2Proof.Machine

/-! ### A tick as its action -/

/-- What follows the action of a tick: the pipelines move, the schedule of the lines moves on, a write cycle stores. -/
def State.afterTick (t : State) : State := (t.withEnv t.intr.shift t.lines.tail).commit

theorem liveTick_platform (s : State) (act : Action) (inp : Input) : (s.liveTick act inp).platform =
    (act { dbus := s.dbus inp.din, res := inp.lines.res } (s.sampled inp)).afterTick := rfl

/-- A tick with the stalls before it is its action, on a state with another environment and data pins. -/
theorem cycle_eq (act : Action) (data : Option Byte) (s : State) :
    ∃ n ks d c, cycle act data s = (act c { s.withEnv n ks with dout := d }).afterTick := by
  obtain ⟨n, ks, d, he, -⟩ := awaitReady_eq data s.lines s
  simp only [cycle, cycleWith, he, liveTick_platform]
  exact ⟨_, ks, _, _, rfl⟩

/-- A tick with the stalls of the JAM state before it: they change the address pins besides. -/
theorem jamCycle_eq (act : Action) (s : State) : ∃ n ks j d c,
    cycleWith State.jamStallTick act none s = (act c { s.withEnv n ks with addr := j, dout := d }).afterTick := by
  obtain ⟨n, ks, j, d, he⟩ := awaitReady_jam s.lines s
  simp only [cycleWith, he, liveTick_platform]
  exact ⟨_, ks, j, _, _, rfl⟩

theorem afterTick_irqPip (t : State) : t.afterTick.intr.irqPip.getLsbD 0 = false := by
  simp [State.afterTick, State.commit, State.withEnv, Intr.shift]

theorem afterTick_wf {t : State} (h : t.mem.wf) : t.afterTick.mem.wf := by
  simp only [State.afterTick, State.commit]
  split
  · exact Memory.wf_write_word h _ _
  · exact h

theorem State.AtBoundary.afterTick {t : State} (h : t.AtBoundary) : t.afterTick.AtBoundary := h

theorem State.Jammed.afterTick {t : State} (h : t.Jammed) : t.afterTick.Jammed := h

/-! ### The parts of the state an action may write -/

/-- A part of the state that the spec names the writers of: a register, one of the flags I, D and B; and memory. -/
inductive Part where
  | a | x | y | sp | i | d | b | mem

/-- The part is in the second state as it is in the first. -/
def Part.Kept (q : Part) (s t : State) : Prop :=
  match q with
  | .a => t.a = s.a
  | .x => t.x = s.x
  | .y => t.y = s.y
  | .sp => t.sp = s.sp
  | .i => t.flag .i = s.flag .i
  | .d => t.flag .d = s.flag .d
  | .b => t.flag .b = s.flag .b
  | .mem => t.mem = s.mem

/-- The opcodes of the instructions that write the part (10_state.md R39, R27, R28, R30). No action writes memory: the platform does. -/
def Part.writers : Part → List Byte
  | .a => [0x01, 0x03, 0x05, 0x07, 0x09, 0x0A, 0x0B, 0x0D, 0x0F, 0x11, 0x13, 0x15, 0x17, 0x19, 0x1B, 0x1D, 0x1F, 0x21, 0x23, 0x25,
      0x27, 0x29, 0x2A, 0x2B, 0x2D, 0x2F, 0x31, 0x33, 0x35, 0x37, 0x39, 0x3B, 0x3D, 0x3F, 0x41, 0x43, 0x45, 0x47, 0x49, 0x4A,
      0x4B, 0x4D, 0x4F, 0x51, 0x53, 0x55, 0x57, 0x59, 0x5B, 0x5D, 0x5F, 0x61, 0x63, 0x65, 0x67, 0x68, 0x69, 0x6A, 0x6B, 0x6D,
      0x6F, 0x71, 0x73, 0x75, 0x77, 0x79, 0x7B, 0x7D, 0x7F, 0x8A, 0x8B, 0x98, 0xA1, 0xA3, 0xA5, 0xA7, 0xA9, 0xAB, 0xAD, 0xAF,
      0xB1, 0xB3, 0xB5, 0xB7, 0xB9, 0xBB, 0xBD, 0xBF, 0xE1, 0xE3, 0xE5, 0xE7, 0xE9, 0xEB, 0xED, 0xEF, 0xF1, 0xF3, 0xF5, 0xF7,
      0xF9, 0xFB, 0xFD, 0xFF]
  | .x => [0xA2, 0xA3, 0xA6, 0xA7, 0xAA, 0xAB, 0xAE, 0xAF, 0xB3, 0xB6, 0xB7, 0xBA, 0xBB, 0xBE, 0xBF, 0xCA, 0xCB, 0xE8]
  | .y => [0x88, 0xA0, 0xA4, 0xA8, 0xAC, 0xB4, 0xBC, 0xC8]
  | .sp => [0x00, 0x08, 0x20, 0x28, 0x40, 0x48, 0x60, 0x68, 0x9A, 0x9B, 0xBB]
  | .i => [0x58, 0x78, 0x28, 0x40, 0x00]
  | .d => [0xD8, 0xF8, 0x28, 0x40]
  | .b => [0x28, 0x40, 0x00]
  | .mem => []

/-- An action leaves the part as it was. -/
def Part.Keeps (q : Part) (act : Action) : Prop := ∀ c s, q.Kept s (act c s)

theorem Part.Kept.trans {q : Part} {s t u : State} (h : q.Kept s t) (k : q.Kept t u) : q.Kept s u := by
  cases q <;> exact Eq.trans k h

/-- A part other than S is kept where nothing is written but S, the pins and what no part holds. -/
theorem Part.kept_of_sp {q : Part} (hq : q ≠ .sp) {s t : State} (ha : t.a = s.a := by rfl) (hx : t.x = s.x := by rfl)
    (hy : t.y = s.y := by rfl) (hp : t.p = s.p := by rfl) (hm : t.mem = s.mem := by rfl) : q.Kept s t := by
  cases q with
  | a => exact ha
  | x => exact hx
  | y => exact hy
  | sp => exact absurd rfl hq
  | i => exact congrArg (getFlag · .i) hp
  | d => exact congrArg (getFlag · .d) hp
  | b => exact congrArg (getFlag · .b) hp
  | mem => exact hm

theorem Part.kept_withEnv (q : Part) (s : State) (n : Intr) (ks : List Lines) (j : Word) (d : Byte) :
    q.Kept s { s.withEnv n ks with addr := j, dout := d } := by
  cases q <;> rfl

theorem Part.kept_afterTick {q : Part} (hq : q ≠ .mem) (t : State) : q.Kept t t.afterTick := by
  cases q
  case mem => exact absurd rfl hq
  all_goals rfl

theorem Part.kept_enterOpcode (q : Part) (s : State) (code : Byte) : q.Kept s (s.enterOpcode code) := by
  cases q <;> rfl

theorem Part.Keeps.fetched {q : Part} {op : Action} (h : q.Keeps op) : q.Keeps fun c s => (op c s).fetch := by
  intro c s
  cases q <;> exact h c s

theorem Part.Keeps.comp {q : Part} {act : Action} {enter : State → State} (he : ∀ s, q.Kept s (enter s)) (h : q.Keeps act) :
    q.Keeps fun c s => act c (enter s) := fun c s => (he s).trans (h c (enter s))

/-- A sub-cycle keeps what every action of its microprogram keeps. -/
theorem microStep_keeps {q : Part} {ticks : List Action} (h : ∀ act ∈ ticks, q.Keeps act) : q.Keeps (microStep ticks) := by
  intro c s
  have h0 : q.Kept s { s with rw := false, ir := s.ir + 1 } := by cases q <;> rfl
  simp only [microStep]
  split
  · next act hk => exact h0.trans (h act (List.mem_of_getElem? hk) c _)
  · exact h0

theorem cycle_kept {q : Part} (hq : q ≠ .mem) {act : Action} (h : q.Keeps act) (data : Option Byte) (s : State) :
    q.Kept s (cycle act data s) := by
  obtain ⟨n, ks, d, c, he⟩ := cycle_eq act data s
  rw [he]
  exact ((q.kept_withEnv s n ks s.addr d).trans (h c _)).trans (q.kept_afterTick hq _)

theorem jamCycle_kept {q : Part} (hq : q ≠ .mem) {act : Action} (h : q.Keeps act) (s : State) :
    q.Kept s (cycleWith State.jamStallTick act none s) := by
  obtain ⟨n, ks, j, d, c, he⟩ := jamCycle_eq act s
  rw [he]
  exact ((q.kept_withEnv s n ks j d).trans (h c _)).trans (q.kept_afterTick hq _)

/-! ### Invariants of a run -/

/-- What the tick of every sub-cycle keeps, a run of them keeps. -/
theorem runTicks_invariant {inv : State → Prop} {ticks : List Action} {operand : List (Option Byte)}
    (h : ∀ data s, inv s → inv (cycle (microStep ticks) data s)) (n : Nat) (s : State) (hs : inv s) :
    inv (runTicks ticks operand n s) := by
  induction n generalizing s with
  | zero => exact hs
  | succ n ih =>
    rw [runTicks]
    split
    · exact hs
    · exact ih _ (h _ s hs)

theorem runFrom_kept {q : Part} (hq : q ≠ .mem) {ticks : List Action} (h : ∀ act ∈ ticks, q.Keeps act) {enter : State → State}
    (he : ∀ s, q.Kept s (enter s)) (opcode : Option Byte) (operand : List (Option Byte)) (s : State) :
    q.Kept s (runFrom enter opcode ticks operand s) :=
  runTicks_invariant (inv := q.Kept s) (fun data _ hs => hs.trans (cycle_kept hq (microStep_keeps h) data _)) _ _
    (cycle_kept hq ((microStep_keeps h).comp he) opcode s)

theorem Part.Keeps.wf {act : Action} (h : Part.mem.Keeps act) (c : Seen) {s : State} (hs : s.mem.wf) : (act c s).mem.wf := by
  rw [show (act c s).mem = s.mem from h c s]
  exact hs

/-- What every tick leaves, from a canonical memory: a canonical memory, and no sample in bit 0 of irq_pip. -/
def State.Tidy (s : State) : Prop := s.mem.wf ∧ s.intr.irqPip.getLsbD 0 = false

theorem tidy_afterTick {t : State} (h : t.mem.wf) : t.afterTick.Tidy := ⟨afterTick_wf h, afterTick_irqPip t⟩

theorem cycle_tidy {act : Action} (h : Part.mem.Keeps act) (data : Option Byte) {s : State} (hs : s.mem.wf) :
    (cycle act data s).Tidy := by
  obtain ⟨n, ks, d, c, he⟩ := cycle_eq act data s
  rw [he]
  exact tidy_afterTick (h.wf c (by exact hs))

theorem jamCycle_tidy {act : Action} (h : Part.mem.Keeps act) {s : State} (hs : s.mem.wf) :
    (cycleWith State.jamStallTick act none s).Tidy := by
  obtain ⟨n, ks, j, d, c, he⟩ := jamCycle_eq act s
  rw [he]
  exact tidy_afterTick (h.wf c (by exact hs))

theorem runFrom_tidy {ticks : List Action} (h : ∀ act ∈ ticks, Part.mem.Keeps act) {enter : State → State}
    (he : ∀ s, Part.mem.Kept s (enter s)) (opcode : Option Byte) (operand : List (Option Byte)) {s : State} (hs : s.mem.wf) :
    (runFrom enter opcode ticks operand s).Tidy :=
  runTicks_invariant (inv := State.Tidy) (fun data _ hs => cycle_tidy (microStep_keeps h) data hs.1) _ _
    (cycle_tidy ((microStep_keeps h).comp he) opcode hs)

end Sys2Proof.Machine
end

section
/-!
SUPPORT. The way of a run through its microprogram: from sub-cycle to sub-cycle, to the fetch that ends it (40_execution.md R107, R109).
-/
namespace Sys2Proof.Machine

/-! ### Actions by what they do to the sub-cycle -/

/-- The state at a sub-cycle of an opcode, no sequence under way. -/
def State.Midway (s : State) (code : Byte) (k : Nat) : Prop := s.sync = false ∧ s.ir = irAt code k ∧ s.brk = BrkFlags.empty

/-- The state at an instruction boundary, or at a later sub-cycle of a microprogram of `n` ticks than `k`. -/
def State.Progressed (s : State) (code : Byte) (n k : Nat) : Prop := s.AtBoundary ∨ ∃ j, k < j ∧ j < n ∧ s.Midway code j

/-- The action of sub-cycle `k` goes on to a later one, or sets up a fetch. -/
def Advances (code : Byte) (n k : Nat) (act : Action) : Prop :=
  ∀ c s, s.Midway code (k + 1) → s.rw = false → (act c s).Progressed code n k

/-- The action leaves the next sub-cycle as it is. For a concrete action each field is true by `rfl`, which is its default. -/
structure Steady (act : Action) : Prop where
  sync : ∀ c s, (act c s).sync = s.sync := by exact fun _ _ => rfl
  ir : ∀ c s, (act c s).ir = s.ir := by exact fun _ _ => rfl
  brk : ∀ c s, (act c s).brk = s.brk := by exact fun _ _ => rfl

/-- The action leaves the next sub-cycle as it is, or skips it. -/
structure Moves (act : Action) : Prop where
  sync : ∀ c s, (act c s).sync = s.sync
  ir : ∀ c s, (act c s).ir = s.ir ∨ (act c s).ir = s.ir + 1
  brk : ∀ c s, (act c s).brk = s.brk

theorem Steady.moves {act : Action} (h : Steady act) : Moves act := ⟨h.sync, fun c s => .inl (h.ir c s), h.brk⟩

theorem Steady.comp {act last : Action} (ha : Steady act) (hl : Steady last) : Steady fun c s => act c (last c s) :=
  ⟨fun c s => (ha.sync c _).trans (hl.sync c s), fun c s => (ha.ir c _).trans (hl.ir c s),
    fun c s => (ha.brk c _).trans (hl.brk c s)⟩

theorem Steady.advances {act : Action} (h : Steady act) {code : Byte} {n k : Nat} (hk : k + 1 < n) : Advances code n k act :=
  fun c s ⟨hs, hi, hb⟩ _ => .inr ⟨k + 1, by omega, hk, (h.sync c s).trans hs, (h.ir c s).trans hi, (h.brk c s).trans hb⟩

theorem Moves.advances {act : Action} (h : Moves act) {code : Byte} {n k : Nat} (hk : k + 2 < n) : Advances code n k act := by
  rintro c s ⟨hs, hi, hb⟩ -
  rcases h.ir c s with he | he
  · exact .inr ⟨k + 1, by omega, by omega, (h.sync c s).trans hs, he.trans hi, (h.brk c s).trans hb⟩
  · exact .inr ⟨k + 2, by omega, hk, (h.sync c s).trans hs, by rw [he, hi, irAt_succ], (h.brk c s).trans hb⟩

/-- An operation in the tick of the fetch ends the instruction. -/
theorem advances_fetched {op : Action} (hrw : ∀ c s, (op c s).rw = s.rw) (hbrk : ∀ c s, (op c s).brk = s.brk) (code : Byte)
    (n k : Nat) : Advances code n k fun c s => (op c s).fetch :=
  fun c s ⟨_, _, hb⟩ hw => .inl ⟨rfl, (hrw c s).trans hw, rfl, (hbrk c s).trans hb⟩

theorem advances_fetchTick (code : Byte) (n k : Nat) : Advances code n k fetchTick :=
  advances_fetched (op := fun _ s => s) (fun _ _ => rfl) (fun _ _ => rfl) code n k

/-! ### Microprograms that run to their fetch -/

/-- Every action of a list, which stands at sub-cycle `k` of a microprogram of `n` ticks, advances. -/
def FlowsFrom (code : Byte) (n : Nat) : Nat → List Action → Prop
  | _, [] => True
  | k, act :: rest => Advances code n k act ∧ FlowsFrom code n (k + 1) rest

/-- A microprogram that runs from sub-cycle to sub-cycle, as many as IR can count, to its fetch. -/
structure Flows (code : Byte) (ticks : List Action) : Prop where
  pos : 0 < ticks.length
  length_le : ticks.length ≤ 8
  advances : FlowsFrom code ticks.length 0 ticks

theorem FlowsFrom.getElem {code : Byte} {n k j : Nat} {l : List Action} (h : FlowsFrom code n k l) (hj : j < l.length) :
    Advances code n (k + j) l[j] := by
  induction l generalizing k j with
  | nil => simp at hj
  | cons act l ih =>
    cases j with
    | zero => exact h.1
    | succ j =>
      have := ih h.2 (Nat.lt_of_succ_lt_succ hj)
      rwa [Nat.add_right_comm, Nat.add_assoc] at this

/-- All actions of a list move, and the last is steady. -/
def Leads : List Action → Prop
  | [] => True
  | [last] => Steady last
  | act :: next :: rest => Moves act ∧ Leads (next :: rest)

theorem Leads.flowsFrom {code : Byte} {n k : Nat} {l rest : List Action} (h : Leads l) (hn : k + l.length < n)
    (hr : FlowsFrom code n (k + l.length) rest) : FlowsFrom code n k (l ++ rest) := by
  induction l generalizing k with
  | nil => exact hr
  | cons act l ih =>
    have hr' : FlowsFrom code n (k + 1 + l.length) rest := by 
      rwa [List.length_cons, Nat.add_comm l.length, ← Nat.add_assoc] at hr
    cases l with
    | nil => exact ⟨Steady.advances h (by simpa using hn), hr'⟩
    | cons next l =>
      simp only [List.length_cons] at hn
      exact ⟨h.1.advances (by omega), ih h.2 (by simp only [List.length_cons]; omega) hr'⟩

theorem Leads.appendLast {act : Action} (ha : Steady act) {l : List Action} (h : Leads l) : Leads (appendLast act l) := by
  match l with
  | [] => trivial
  | [last] => exact ha.comp h
  | [_, _] => exact ⟨h.1, ha.comp h.2⟩
  | _ :: next :: third :: rest => exact ⟨h.1, Leads.appendLast (l := next :: third :: rest) ha h.2⟩

theorem moves_indexTick (index : State → Byte) (k : Access) : Moves (indexTick index k) := by
  constructor <;> intro c s <;> simp only [indexTick] <;> split <;> simp

theorem leads_addressing (m : Mode) (k : Access) : Leads (addressing m k) := by
  have hop : Moves operandTick := Steady.moves {}
  have hzp : Moves zeroPageTick := Steady.moves {}
  cases m with
  | none | imm | jsr => exact Steady.mk
  | zp | jmp => exact ⟨hop, {}⟩
  | zpx | zpy => exact ⟨hop, hzp, {}⟩
  | abs => exact ⟨hop, Steady.moves {}, {}⟩
  | abx | aby => exact ⟨hop, Steady.moves {}, moves_indexTick _ k, {}⟩
  | idx => exact ⟨hop, hzp, Steady.moves {}, Steady.moves {}, {}⟩
  | idy => exact ⟨hop, hzp, Steady.moves {}, moves_indexTick _ k, {}⟩
  | inv => trivial

theorem length_addressing_le (m : Mode) (k : Access) : (addressing m k).length ≤ 5 := by
  cases m <;> simp [addressing]

/-- Addressing ticks, with a store in the last of them or not, and the ticks after them. -/
theorem flows_addressing {act : Action} (ha : Steady act) (m : Mode) (k : Access) {code : Byte} {rest : List Action}
    (hpos : 0 < rest.length) (hle : rest.length ≤ 3)
    (hr : ∀ j, FlowsFrom code (j + rest.length) j rest) : Flows code (appendLast act (addressing m k) ++ rest) := by
  have hn := length_addressing_le m k
  have hlen : (appendLast act (addressing m k)).length = (addressing m k).length := length_appendLast _ _
  refine ⟨?_, ?_, ?_⟩
  · rw [List.length_append]; omega
  · rw [List.length_append]; omega
  · refine ((leads_addressing m k).appendLast ha).flowsFrom ?_ ?_
    · rw [List.length_append]; omega
    · rw [List.length_append, Nat.zero_add]
      exact hr _

theorem flows_unstored (m : Mode) (k : Access) {code : Byte} {rest : List Action} (hpos : 0 < rest.length)
    (hle : rest.length ≤ 3) (hr : ∀ j, FlowsFrom code (j + rest.length) j rest) : Flows code (addressing m k ++ rest) := by
  have h := flows_addressing (act := fun _ s => s) {} m k hpos hle hr
  rwa [appendLast_id] at h

theorem flows_readTicks {op : Action} (hrw : ∀ c s, (op c s).rw = s.rw) (hbrk : ∀ c s, (op c s).brk = s.brk) (m : Mode)
    (code : Byte) : Flows code (readTicks m op) :=
  flows_unstored m .read (by simp) (by simp) fun _ => ⟨advances_fetched hrw hbrk _ _ _, trivial⟩

theorem flows_impliedTicks {op : State → State} (hrw : ∀ s, (op s).rw = s.rw) (hbrk : ∀ s, (op s).brk = s.brk) (code : Byte) :
    Flows code (impliedTicks op) :=
  flows_unstored .none .none (by simp) (by simp) fun _ =>
    ⟨advances_fetched (op := fun _ => op) (fun _ => hrw) (fun _ => hbrk) _ _ _, trivial⟩

theorem flows_writeTicks {store : State → State} (h : Steady fun _ => store) (m : Mode) (code : Byte) :
    Flows code (writeTicks m store) :=
  flows_addressing h m .write (by simp) (by simp) fun _ => ⟨advances_fetchTick _ _ _, trivial⟩

theorem flows_modifyTicks {f : Byte → State → Byte × State} (h : Steady fun c s => (f c.dbus s).2) (m : Mode) (code : Byte) :
    Flows code (modifyTicks m f) := by
  have hf : Steady fun _ s => match f (lo s.ad) s with | (v, s) => s.drive v :=
    ⟨fun _ s => h.sync ⟨lo s.ad, false⟩ s, fun _ s => h.ir ⟨lo s.ad, false⟩ s, fun _ s => h.brk ⟨lo s.ad, false⟩ s⟩
  exact flows_unstored m .readWrite (by simp) (by simp) fun j =>
    ⟨Steady.advances {} (by simp), hf.advances (by simp), advances_fetchTick _ _ _, trivial⟩

theorem flows_pushTicks (v : State → Byte) (code : Byte) : Flows code (pushTicks v) :=
  flows_unstored .none .write (by simp) (by simp) fun _ => ⟨Steady.advances {} (by simp), advances_fetchTick _ _ _, trivial⟩

theorem flows_pullTicks {op : Action} (hrw : ∀ c s, (op c s).rw = s.rw) (hbrk : ∀ c s, (op c s).brk = s.brk) (code : Byte) :
    Flows code (pullTicks op) :=
  flows_unstored .none .none (by simp) (by simp) fun _ =>
    ⟨Steady.advances {} (by simp), Steady.advances {} (by simp), advances_fetched hrw hbrk _ _ _, trivial⟩

theorem flows_ticksJmpAbs (code : Byte) : Flows code ticksJmpAbs :=
  flows_unstored .jmp .read (by simp) (by simp) fun _ =>
    ⟨advances_fetched (op := fun c s => { s with pc := highOver c.dbus s.ad }) (fun _ _ => rfl) (fun _ _ => rfl) _ _ _, trivial⟩

theorem flows_ticksJmpInd (code : Byte) : Flows code ticksJmpInd :=
  flows_unstored .jmp .read (by simp) (by simp) fun _ =>
    ⟨Steady.advances {} (by simp), Steady.advances {} (by simp),
      advances_fetched (op := fun c s => { s with pc := highOver c.dbus s.ad }) (fun _ _ => rfl) (fun _ _ => rfl) _ _ _, trivial⟩

theorem flows_ticksJsr (code : Byte) : Flows code ticksJsr :=
  ⟨by decide, by decide, Steady.advances {} (by decide), Steady.advances {} (by decide), Steady.advances {} (by decide),
    Steady.advances {} (by decide), Steady.advances {} (by decide),
    advances_fetched (op := fun c s => { s with pc := highOver c.dbus s.ad }) (fun _ _ => rfl) (fun _ _ => rfl) _ _ _, trivial⟩

theorem flows_ticksRts (code : Byte) : Flows code ticksRts :=
  ⟨by decide, by decide, Steady.advances {} (by decide), Steady.advances {} (by decide), Steady.advances {} (by decide),
    Steady.advances {} (by decide), Steady.advances {} (by decide), advances_fetchTick _ _ _, trivial⟩

theorem flows_returnTicks (code : Byte) : Flows code returnTicks :=
  ⟨by decide, by decide, Steady.advances {} (by decide), Steady.advances {} (by decide), Steady.advances {} (by decide),
    Steady.advances {} (by decide), Steady.advances {} (by decide),
    advances_fetched (op := fun c s => { s with pc := highOver c.dbus s.ad }) (fun _ _ => rfl) (fun _ _ => rfl) _ _ _, trivial⟩

theorem steady_pushUnlessReset (v : State → Byte) : Steady fun _ s => s.pushUnlessReset (v s) := by
  constructor <;> intro c s <;> simp only [State.pushUnlessReset] <;> split <;> rfl

theorem flows_interruptTicks (code : Byte) : Flows code interruptTicks := by
  have hhigh : Steady pushPcHighTick := by
    rw [funext₂ pushPcHighTick_eq]
    exact (steady_pushUnlessReset fun s => hi s.pc).comp (last := fun _ s => { s with pc := savedPc s.brk s.pc }) {}
  have hlow : Steady pushPcLowTick := steady_pushUnlessReset fun s => lo s.pc
  have hpush := steady_pushUnlessReset fun s => pushedStatus s.p
  have hstatus : Steady pushStatusTick := ⟨hpush.sync, hpush.ir, hpush.brk⟩
  have hvector : Advances code 7 4 vectorLowTick := fun _ s ⟨hs, hi, _⟩ _ => .inr ⟨5, by decide, by decide, hs, hi, rfl⟩
  exact ⟨by decide, by decide, Steady.advances {} (by decide), hhigh.advances (by decide), hlow.advances (by decide),
    hstatus.advances (by decide), hvector, Steady.advances {} (by decide),
    advances_fetched (op := fun c s => { s with pc := highOver c.dbus s.ad }) (fun _ _ => rfl) (fun _ _ => rfl) _ _ _, trivial⟩

theorem flows_branchTicks (cond : State → Bool) (code : Byte) : Flows code (branchTicks cond) := by
  refine ⟨by simp [branchTicks], by simp [branchTicks], Steady.advances {} (by simp [branchTicks]), ?_, ?_,
    advances_fetched (op := fun _ s => { s with pc := s.ad }) (fun _ _ => rfl) (fun _ _ => rfl) _ _ _, trivial⟩
  · rintro c s ⟨hs, hi, hb⟩ hw
    dsimp only
    split
    · exact .inr ⟨2, by decide, by simp [branchTicks], hs, hi, hb⟩
    · exact .inl ⟨rfl, hw, rfl, hb⟩
  · rintro c s ⟨hs, hi, hb⟩ hw
    dsimp only
    split
    · exact .inl ⟨rfl, hw, rfl, hb⟩
    · exact .inr ⟨3, by decide, by simp [branchTicks], hs, hi, hb⟩

/-! ### Runs to the next boundary -/

theorem subCycle_of_ir {s : State} {code : Byte} {k : Nat} (h : s.ir = irAt code k) (hk : k < 8) : s.subCycle = k := by
  rw [State.subCycle, h, irAt_and code hk]

theorem State.Progressed.afterTick {t : State} {code : Byte} {n k : Nat} (h : t.Progressed code n k) :
    t.afterTick.Progressed code n k := h

/-- A sub-cycle of a microprogram that flows. -/
theorem microStep_progress {code : Byte} {ticks : List Action} (hf : Flows code ticks) {k : Nat} (hk : k < ticks.length)
    {s : State} (hs : s.Midway code k) (c : Seen) : (microStep ticks c s).Progressed code ticks.length k := by
  have hact : ticks[s.subCycle]? = some ticks[k] := by
    rw [subCycle_of_ir hs.2.1 (by have := hf.length_le; omega), List.getElem?_eq_getElem hk]
  have hadv := hf.advances.getElem hk
  rw [Nat.zero_add] at hadv
  obtain ⟨hsync, hir, hbrk⟩ := hs
  simp only [microStep, hact]
  exact hadv c _ ⟨hsync, by rw [← irAt_succ, ← hir], hbrk⟩ rfl

theorem cycle_progress {code : Byte} {ticks : List Action} (hf : Flows code ticks) {k : Nat} (hk : k < ticks.length)
    {s : State} (hs : s.Midway code k) (data : Option Byte) :
    (cycle (microStep ticks) data s).Progressed code ticks.length k := by
  obtain ⟨n, ks, d, c, he⟩ := cycle_eq (microStep ticks) data s
  rw [he]
  exact (microStep_progress hf hk (by exact hs) c).afterTick

/-- Enough sub-cycles come to the boundary. -/
theorem runTicks_boundary {code : Byte} {ticks : List Action} (hf : Flows code ticks) (operand : List (Option Byte))
    (fuel k : Nat) (s : State) (hs : s.Progressed code ticks.length k) (hn : ticks.length ≤ k + 1 + fuel) :
    (runTicks ticks operand fuel s).AtBoundary := by
  induction fuel generalizing k s with
  | zero =>
    rcases hs with hs | ⟨j, hj, hjn, -⟩
    · exact hs
    · omega
  | succ fuel ih =>
    rcases hs with hs | ⟨j, hj, hjn, hm⟩
    · rw [runTicks, if_pos hs.1]
      exact hs
    · rw [runTicks, if_neg (by rw [hm.1]; simp)]
      exact ih j _ (cycle_progress hf hjn hm _) (by omega)

/-- A run of a microprogram that flows comes from a boundary to the next. -/
theorem runFrom_boundary {code : Byte} {ticks : List Action} (hf : Flows code ticks) (opcode : Option Byte)
    (operand : List (Option Byte)) {s : State} (hs : s.AtBoundary) :
    (runFrom (fun s => s.enterOpcode code) opcode ticks operand s).AtBoundary := by
  obtain ⟨n, ks, d, c, he⟩ := cycle_eq (fun c s => microStep ticks c (s.enterOpcode code)) opcode s
  have hmid : (State.enterOpcode { s.withEnv n ks with dout := d } code).Midway code 0 := ⟨rfl, irAt_zero code, hs.2.2.2⟩
  refine runTicks_boundary hf operand _ 0 _ ?_ (by have := hf.pos; omega)
  rw [he]
  exact (microStep_progress hf hf.pos hmid c).afterTick

end Sys2Proof.Machine
end

section
/-!
SUPPORT. What the operation of each instruction on an operand writes, and which microprogram it makes.
-/
namespace Sys2Proof.Machine

/-! ### The flags I, D and B of a status byte -/

/-- The flags that N, V, Z and C leave alone and a few instructions write. -/
def systemFlags (p : Byte) : Bool × Bool × Bool := (getFlag p .i, getFlag p .d, getFlag p .b)

@[simp] theorem systemFlags_carry (p : Byte) (v : Bool) : systemFlags (setFlag p .c v) = systemFlags p := by
  simp [systemFlags]

@[simp] theorem systemFlags_overflow (p : Byte) (v : Bool) : systemFlags (setFlag p .v v) = systemFlags p := by
  simp [systemFlags]

@[simp] theorem systemFlags_setNZ (p v : Byte) : systemFlags (setNZ p v) = systemFlags p := by
  simp [systemFlags, getFlag_setNZ]

@[simp] theorem systemFlags_setNVZC (p : Byte) (q : AluResult) : systemFlags (setNVZC p q) = systemFlags p := by
  simp [systemFlags, getFlag_setNVZC]

@[simp] theorem systemFlags_shiftStatus (p : Byte) (q : Byte × Bool) : systemFlags (shiftStatus p q) = systemFlags p := by
  simp [systemFlags, getFlag_shiftStatus]

@[simp] theorem systemFlags_bitStatus (p a m : Byte) : systemFlags (bitStatus p a m) = systemFlags p := by
  simp [systemFlags, getFlag_bitStatus]

@[simp] theorem systemFlags_cmpStatus (p r m : Byte) : systemFlags (cmpStatus p r m) = systemFlags p := by
  simp [systemFlags, cmpStatus]

/-! ### Operations -/

/-- The instruction addresses an operand and has an operation on it: it is no branch, jump, JAM or instruction without an operand. -/
def operatesOnOperand (i : Instr) : Bool :=
  match modeOf i with
  | .none | .jmp | .jsr | .inv => false
  | _ => (branchOffset? i).isNone

/-- The operation of an opcode leaves the sub-cycle, memory, I, D and B alone, and the registers that R39 does not give the opcode. For a
concrete opcode a register's field is false by its hypothesis or true by `rfl`, which is its default. -/
structure Ordinary (code : Byte) (op : Action) : Prop extends Steady op where
  mem : ∀ c s, (op c s).mem = s.mem := by exact fun _ _ => rfl
  a : Part.a.writers.contains code = false → ∀ c s, (op c s).a = s.a := by exact fun h _ _ => by cases h <;> rfl
  x : Part.x.writers.contains code = false → ∀ c s, (op c s).x = s.x := by exact fun h _ _ => by cases h <;> rfl
  y : Part.y.writers.contains code = false → ∀ c s, (op c s).y = s.y := by exact fun h _ _ => by cases h <;> rfl
  sp : Part.sp.writers.contains code = false → ∀ c s, (op c s).sp = s.sp := by exact fun h _ _ => by cases h <;> rfl
  p : ∀ c s, systemFlags (op c s).p = systemFlags s.p

theorem Ordinary.keeps {code : Byte} {op : Action} (h : Ordinary code op) (q : Part) (hq : q.writers.contains code = false) :
    q.Keeps op := by
  intro c s
  cases q with
  | a => exact h.a hq c s
  | x => exact h.x hq c s
  | y => exact h.y hq c s
  | sp => exact h.sp hq c s
  | i => exact congrArg Prod.fst (h.p c s)
  | d => exact congrArg (·.2.1) (h.p c s)
  | b => exact congrArg (·.2.2) (h.p c s)
  | mem => exact h.mem c s

/-! Each instruction in turn: the hypotheses leave those of the access kind, the microprogram names its mode and its operation, and the
operation's definition shows what it writes. -/

theorem microprogram_of_read {i : Instr} (ho : operatesOnOperand i = true) (ha : accessOf i = .read) :
    ∃ op, microprogram i = readTicks (modeOf i) op ∧ Ordinary i.opcode op ∧ ∀ c s, (op c s).rw = s.rw := by
  cases i <;> cases ha <;> cases ho <;> dsimp only [Instr.opcode, microprogram] <;>
    exact ⟨_, rfl, { p := fun _ _ => by simp [ldaOp, ldxOp, ldyOp, oraOp, andOp, eorOp, adcOp, sbcOp, cmpOp, cpxOp, cpyOp, bitOp,
      nopReadOp, laxOp, ancOp, asrOp, arrOp, aneOp, lxaOp, sbxOp, lasOp, shiftA, State.addToA, State.subtractFromA] }, fun _ _ => rfl⟩

theorem microprogram_of_write {i : Instr} (ho : operatesOnOperand i = true) (ha : accessOf i = .write) :
    ∃ store, microprogram i = writeTicks (modeOf i) store ∧ Ordinary i.opcode fun _ => store := by
  cases i <;> cases ha <;> cases ho <;> dsimp only [Instr.opcode, microprogram] <;> exact ⟨_, rfl, { p := fun _ _ => rfl }⟩

theorem microprogram_of_readWrite {i : Instr} (ho : operatesOnOperand i = true) (ha : accessOf i = .readWrite) :
    ∃ f, microprogram i = modifyTicks (modeOf i) f ∧ Ordinary i.opcode fun c s => (f c.dbus s).2 := by
  cases i <;> cases ha <;> cases ho <;> dsimp only [Instr.opcode, microprogram] <;>
    exact ⟨_, rfl, { p := fun _ _ => by simp [incStep, decStep, aslStep, lsrStep, rolStep, rorStep, sloStep, rlaStep, sreStep, rraStep,
      dcpStep, isbStep, shiftStep, State.addToA, State.subtractFromA] }⟩

theorem accessOf_ne_none {i : Instr} (ho : operatesOnOperand i = true) : accessOf i ≠ .none := by
  intro ha
  cases i <;> cases ha <;> cases ho

end Sys2Proof.Machine
end

section
/-!
SUPPORT. That every microprogram but a JAM's runs to its fetch and writes no part but those the spec gives its instruction.
-/
namespace Sys2Proof.Machine

/-! ### What the ticks of each microprogram keep -/

theorem keeps_indexTick (q : Part) (index : State → Byte) (k : Access) : q.Keeps (indexTick index k) := by
  intro c s
  simp only [indexTick]
  split <;> cases q <;> rfl

/-- The addressing ticks write no part. -/
theorem keeps_addressing (q : Part) (m : Mode) (k : Access) : ∀ act ∈ addressing m k, q.Keeps act := by
  have hx := keeps_indexTick q State.x k
  have hy := keeps_indexTick q State.y k
  cases m <;> simp only [addressing, List.forall_mem_cons, List.not_mem_nil, false_implies, implies_true, and_true, hx, hy,
    true_and] <;> (repeat' apply And.intro) <;> exact fun _ _ => by cases q <;> rfl

theorem keeps_appendLast {q : Part} {act : Action} (ha : q.Keeps act) {l : List Action} (h : ∀ t ∈ l, q.Keeps t) :
    ∀ t ∈ appendLast act l, q.Keeps t := by
  match l with
  | [] => exact h
  | [last] =>
    rw [List.forall_mem_singleton] at h
    exact List.forall_mem_singleton.mpr fun c s => (h c s).trans (ha c _)
  | t :: next :: rest =>
    rw [List.forall_mem_cons] at h
    exact List.forall_mem_cons.mpr ⟨h.1, keeps_appendLast ha h.2⟩

theorem keeps_fetchTick (q : Part) : q.Keeps fetchTick := fun _ _ => by cases q <;> rfl

theorem keeps_readTicks {q : Part} {op : Action} (h : q.Keeps op) (m : Mode) : ∀ act ∈ readTicks m op, q.Keeps act :=
  List.forall_mem_append.mpr ⟨keeps_addressing q m .read, List.forall_mem_singleton.mpr h.fetched⟩

theorem keeps_impliedTicks {q : Part} {op : State → State} (h : q.Keeps fun _ => op) : ∀ act ∈ impliedTicks op, q.Keeps act :=
  List.forall_mem_append.mpr ⟨keeps_addressing q .none .none, List.forall_mem_singleton.mpr h.fetched⟩

theorem keeps_writeTicks {q : Part} {store : State → State} (h : q.Keeps fun _ => store) (m : Mode) :
    ∀ act ∈ writeTicks m store, q.Keeps act :=
  List.forall_mem_append.mpr
    ⟨keeps_appendLast h (keeps_addressing q m .write), List.forall_mem_singleton.mpr (keeps_fetchTick q)⟩

theorem keeps_modifyTicks {q : Part} {f : Byte → State → Byte × State} (h : q.Keeps fun c s => (f c.dbus s).2) (m : Mode) :
    ∀ act ∈ modifyTicks m f, q.Keeps act := by
  refine List.forall_mem_append.mpr ⟨keeps_addressing q m .readWrite, ?_⟩
  simp only [List.forall_mem_cons, List.not_mem_nil, false_implies, implies_true, and_true]
  refine ⟨fun _ _ => by cases q <;> rfl, fun _ s => ?_, keeps_fetchTick q⟩
  have hdrive : ∀ (v : Byte) (t : State), q.Kept t (t.drive v) := fun _ _ => by cases q <;> rfl
  exact Part.Kept.trans (h ⟨lo s.ad, false⟩ s) (hdrive _ _)

theorem keeps_pushTicks {q : Part} (hq : q ≠ .sp) (v : State → Byte) : ∀ act ∈ pushTicks v, q.Keeps act := by
  refine List.forall_mem_append.mpr ⟨keeps_addressing q .none .write, ?_⟩
  exact List.forall_mem_cons.mpr ⟨fun _ _ => Part.kept_of_sp hq, List.forall_mem_singleton.mpr (keeps_fetchTick q)⟩

theorem keeps_pullTicks {q : Part} (hq : q ≠ .sp) {op : Action} (h : q.Keeps op) : ∀ act ∈ pullTicks op, q.Keeps act := by
  refine List.forall_mem_append.mpr ⟨keeps_addressing q .none .none, ?_⟩
  simp only [List.forall_mem_cons, List.not_mem_nil, false_implies, implies_true, and_true]
  exact ⟨fun _ _ => Part.kept_of_sp hq, fun _ _ => Part.kept_of_sp hq, h.fetched⟩

theorem keeps_plpOp {q : Part} (hq : q.writers.contains 0x28 = false) : q.Keeps plpOp := by
  cases q
  case i | d | b => cases hq
  all_goals exact fun _ _ => rfl

theorem keeps_ticksJmpAbs (q : Part) : ∀ act ∈ ticksJmpAbs, q.Keeps act :=
  List.forall_mem_append.mpr ⟨keeps_addressing q .jmp .read, List.forall_mem_singleton.mpr fun _ _ => by cases q <;> rfl⟩

theorem keeps_ticksJmpInd (q : Part) : ∀ act ∈ ticksJmpInd, q.Keeps act := by
  refine List.forall_mem_append.mpr ⟨keeps_addressing q .jmp .read, ?_⟩
  simp only [List.forall_mem_cons, List.not_mem_nil, false_implies, implies_true, and_true]
  cases q <;> exact ⟨fun _ _ => rfl, fun _ _ => rfl, fun _ _ => rfl⟩

theorem keeps_ticksJsr {q : Part} (hq : q ≠ .sp) : ∀ act ∈ ticksJsr, q.Keeps act := by
  refine List.forall_mem_append.mpr ⟨keeps_addressing q .jsr .read, ?_⟩
  simp only [List.forall_mem_cons, List.not_mem_nil, false_implies, implies_true, and_true]
  exact ⟨fun _ _ => Part.kept_of_sp hq, fun _ _ => Part.kept_of_sp hq, fun _ _ => Part.kept_of_sp hq,
    fun _ _ => Part.kept_of_sp hq, fun _ _ => Part.kept_of_sp hq⟩

theorem keeps_ticksRts {q : Part} (hq : q ≠ .sp) : ∀ act ∈ ticksRts, q.Keeps act := by
  refine List.forall_mem_append.mpr ⟨keeps_addressing q .none .none, ?_⟩
  simp only [List.forall_mem_cons, List.not_mem_nil, false_implies, implies_true, and_true]
  exact ⟨fun _ _ => Part.kept_of_sp hq, fun _ _ => Part.kept_of_sp hq, fun _ _ => Part.kept_of_sp hq,
    fun _ _ => Part.kept_of_sp hq, fun _ _ => Part.kept_of_sp hq⟩

theorem keeps_returnTicks {q : Part} (hq : q.writers.contains 0x40 = false) : ∀ act ∈ returnTicks, q.Keeps act := by
  simp only [returnTicks, List.forall_mem_cons, List.not_mem_nil, false_implies, implies_true, and_true]
  cases q
  case sp | i | d | b => cases hq
  all_goals exact ⟨fun _ _ => rfl, fun _ _ => rfl, fun _ _ => rfl, fun _ _ => rfl, fun _ _ => rfl, fun _ _ => rfl⟩

theorem keeps_branchTicks (q : Part) (cond : State → Bool) : ∀ act ∈ branchTicks cond, q.Keeps act := by
  simp only [branchTicks, List.forall_mem_cons, List.not_mem_nil, false_implies, implies_true, and_true]
  refine ⟨fun _ _ => by cases q <;> rfl, fun _ _ => ?_, fun _ _ => ?_, fun _ _ => by cases q <;> rfl⟩
  · dsimp only
    split <;> cases q <;> rfl
  · dsimp only
    split <;> cases q <;> rfl

theorem keeps_jamTicks (q : Part) : ∀ act ∈ jamTicks, q.Keeps act := by
  simp only [jamTicks, List.forall_mem_cons, List.not_mem_nil, false_implies, implies_true, and_true]
  refine ⟨fun _ _ => by cases q <;> rfl, fun _ _ => ?_⟩
  simp only [jamTick]
  split <;> cases q <;> rfl

theorem kept_pushUnlessReset {q : Part} (hq : q ≠ .sp) (v : Byte) (s : State) : q.Kept s (s.pushUnlessReset v) := by
  simp only [State.pushUnlessReset]
  split
  · exact Part.kept_of_sp hq
  · exact Part.kept_of_sp hq

/-- The interrupt sequence writes S, I and B. -/
theorem keeps_interruptTicks {q : Part} (hq : q.writers.contains 0x00 = false) : ∀ act ∈ interruptTicks, q.Keeps act := by
  have hsp : q ≠ .sp := by rintro rfl; cases hq
  have hpc : ∀ s : State, q.Kept s { s with pc := savedPc s.brk s.pc } := fun _ => by cases q <;> rfl
  have had : ∀ (s : State) k, q.Kept s { s with ad := k } := fun _ _ => by cases q <;> rfl
  simp only [interruptTicks, List.forall_mem_cons, List.not_mem_nil, false_implies, implies_true, and_true]
  refine ⟨fun _ _ => by cases q <;> rfl, fun c s => ?_, fun _ _ => kept_pushUnlessReset hsp _ _, fun _ s => ?_, fun _ s => ?_,
    fun _ _ => by cases q <;> rfl, fun _ _ => by cases q <;> rfl⟩
  · rw [pushPcHighTick_eq]
    exact (hpc s).trans (kept_pushUnlessReset hsp _ _)
  · exact (kept_pushUnlessReset hsp _ s).trans (had _ _)
  · cases q
    case sp | i | b => cases hq
    case d => simp [Part.Kept, State.flag, vectorLowTick, State.withFlag]
    all_goals rfl

/-! ### Every microprogram -/

/-- The microprogram of an instruction runs to its fetch, and writes no part but those R39 gives the instruction. -/
structure Obeys (i : Instr) (ticks : List Action) : Prop where
  flows : Flows i.opcode ticks
  keeps : ∀ q : Part, q.writers.contains i.opcode = false → ∀ act ∈ ticks, q.Keeps act

theorem obeys_of_operates {i : Instr} (ho : operatesOnOperand i = true) : Obeys i (microprogram i) := by
  match ha : accessOf i with
  | .none => exact absurd ha (accessOf_ne_none ho)
  | .read =>
    obtain ⟨op, he, h, hrw⟩ := microprogram_of_read ho ha
    rw [he]
    exact ⟨flows_readTicks hrw h.brk _ _, fun q hq => keeps_readTicks (h.keeps q hq) _⟩
  | .write =>
    obtain ⟨store, he, h⟩ := microprogram_of_write ho ha
    rw [he]
    exact ⟨flows_writeTicks h.toSteady _ _, fun q hq => keeps_writeTicks (h.keeps q hq) _⟩
  | .readWrite =>
    obtain ⟨f, he, h⟩ := microprogram_of_readWrite ho ha
    rw [he]
    exact ⟨flows_modifyTicks h.toSteady _ _, fun q hq => keeps_modifyTicks (h.keeps q hq) _⟩

theorem obeys_implied {i : Instr} {op : State → State} (hrw : ∀ s, (op s).rw = s.rw) (hbrk : ∀ s, (op s).brk = s.brk)
    (h : ∀ q : Part, q.writers.contains i.opcode = false → q.Keeps fun _ => op) : Obeys i (impliedTicks op) :=
  ⟨flows_impliedTicks hrw hbrk _, fun q hq => keeps_impliedTicks (h q hq)⟩

theorem obeys_branch {i : Instr} (cond : State → Bool) : Obeys i (branchTicks cond) :=
  ⟨flows_branchTicks cond _, fun q _ => keeps_branchTicks q cond⟩

theorem ne_of_writers {q r : Part} {code : Byte} (hr : r.writers.contains code = true) (hq : q.writers.contains code = false) :
    q ≠ r := by
  rintro rfl
  rw [hr] at hq
  cases hq

theorem obeys_of_not_operates {i : Instr} (ho : operatesOnOperand i = false) (hj : isJam i = false) : Obeys i (microprogram i) := by
  cases i <;> cases ho <;> cases hj <;> dsimp only [microprogram]
  case bpl | bmi | bvc | bvs | bcc | bcs | bne | beq => exact obeys_branch _
  case brk => exact ⟨flows_interruptTicks _, fun _ => keeps_interruptTicks⟩
  case rti => exact ⟨flows_returnTicks _, fun _ => keeps_returnTicks⟩
  case jsr => exact ⟨flows_ticksJsr _, fun _ hq => keeps_ticksJsr (ne_of_writers rfl hq)⟩
  case rts => exact ⟨flows_ticksRts _, fun _ hq => keeps_ticksRts (ne_of_writers rfl hq)⟩
  case jmpAbs => exact ⟨flows_ticksJmpAbs _, fun q _ => keeps_ticksJmpAbs q⟩
  case jmpInd => exact ⟨flows_ticksJmpInd _, fun q _ => keeps_ticksJmpInd q⟩
  case pha | php => exact ⟨flows_pushTicks _ _, fun _ hq => keeps_pushTicks (ne_of_writers rfl hq) _⟩
  case pla => exact ⟨flows_pullTicks (op := plaOp) (fun _ _ => rfl) (fun _ _ => rfl) _,
    fun q hq => keeps_pullTicks (ne_of_writers rfl hq) (Ordinary.keeps { p := fun _ _ => by simp [plaOp] } q hq)⟩
  case plp => exact ⟨flows_pullTicks (op := plpOp) (fun _ _ => rfl) (fun _ _ => rfl) _,
    fun q hq => keeps_pullTicks (ne_of_writers rfl hq) (keeps_plpOp hq)⟩
  case cli | sei | cld | sed =>
    refine obeys_implied (fun _ => rfl) (fun _ => rfl) fun q hq _ _ => ?_
    dsimp only [Instr.opcode] at hq
    cases q <;> cases hq <;> simp [Part.Kept, State.flag, cliOp, seiOp, cldOp, sedOp]
  all_goals
    exact obeys_implied (fun _ => rfl) (fun _ => rfl) (Ordinary.keeps { p := fun _ _ => by simp [aslAOp, lsrAOp, rolAOp, rorAOp,
      taxOp, tayOp, txaOp, tyaOp, tsxOp, txsOp, clcOp, secOp, clvOp, inxOp, inyOp, dexOp, deyOp, nopOp, shiftA] })

theorem obeys_microprogram {i : Instr} (hj : isJam i = false) : Obeys i (microprogram i) := by
  cases ho : operatesOnOperand i with
  | true => exact obeys_of_operates ho
  | false => exact obeys_of_not_operates ho hj

end Sys2Proof.Machine
end

section
/-!
Who writes the registers and the flags I, D and B: O50 and O51.
-/
namespace Sys2Proof.Machine

/-! ### What exec runs -/

/-- An instruction that is no JAM runs its microprogram from its boundary. -/
theorem exec_eq_runFrom {i : Instr} (hj : isJam i = false) (s : State) : ∃ operand,
    exec i s = .next (runFrom (fun s => s.enterOpcode i.opcode) (some i.opcode) (microprogram i) operand s) := by
  cases i <;> cases hj <;> exact ⟨_, rfl⟩

/-- A JAM runs its boundary, then a tick of the JAM state. -/
theorem exec_eq_runJam {i : Instr} (hj : isJam i = true) (s : State) : exec i s = .next (cycleWith State.jamStallTick
    (microStep jamTicks) none (cycle (fun c s => microStep jamTicks c (s.enterOpcode i.opcode)) (some i.opcode) s)) := by
  cases i <;> cases hj <;> rfl

/-- An instruction leaves every part that R39 does not give it. -/
theorem exec_kept {q : Part} (hq : q ≠ .mem) {i : Instr} (hw : i.opcode ∉ q.writers) {s t : State} (h : exec i s = .next t) :
    q.Kept s t := by
  have hw' : q.writers.contains i.opcode = false := by rwa [List.contains_eq_mem, decide_eq_false_iff_not]
  have henter : ∀ s : State, q.Kept s (s.enterOpcode i.opcode) := fun s => q.kept_enterOpcode s _
  cases hj : isJam i with
  | false =>
    obtain ⟨operand, he⟩ := exec_eq_runFrom hj s
    obtain rfl := Host.Outcome.next.inj (he.symm.trans h)
    exact runFrom_kept hq ((obeys_microprogram hj).keeps q hw') henter _ _ _
  | true =>
    obtain rfl := Host.Outcome.next.inj ((exec_eq_runJam hj s).symm.trans h)
    have hjam := microStep_keeps (keeps_jamTicks q)
    exact (cycle_kept hq (hjam.comp henter) _ s).trans (jamCycle_kept hq hjam _)

/-- Settles O50: an instruction writes no register but those R39 gives it, since no action of its microprogram does. -/
theorem registerWriters : Obligations.RegisterWriters := by
  intro i s t h
  exact ⟨fun hw => exec_kept (q := .a) nofun hw h, fun hw => exec_kept (q := .x) nofun hw h,
    fun hw => exec_kept (q := .y) nofun hw h, fun hw => exec_kept (q := .sp) nofun hw h⟩

/-! ### P.B after an instruction -/

theorem flag_b_pulledStatus (v : Byte) : getFlag (pulledStatus v) .b = true := by
  rw [getFlag_pulledStatus]

theorem entered_flag_b (r : Arch) (f : BrkFlags) : (r.entered f).flag .b = true := by
  simp [Arch.entered, Arch.enterHandler, Arch.flag]

theorem actsAs_plpOp : ActsAs plpOp (fun v r => { r with p := pulledStatus v }) :=
  ⟨fun _ _ n _ => ⟨n, rfl⟩, fun _ _ => rfl, fun _ _ => rfl, fun _ _ => rfl⟩

theorem completes_plp {s : State} (hb : s.AtBoundary) : Completes .plp s
    { s.arch.skip 1 with sp := s.sp + 1, p := pulledStatus (s.readByte (stackAddr (s.sp + 1))) } :=
  completes_pull rfl actsAs_plpOp hb

/-- BRK completes with the interrupt sequence on the empty set, PC past its opcode. -/
theorem completes_brk {s : State} (hb : s.AtBoundary) : Completes .brk s ((s.arch.skip 1).entered BrkFlags.empty) := by
  obtain ⟨harch, hbound⟩ := interrupt_rest (operand := [none]) (by simp) s (s.pc + 1) s.ad (s.pc + 1) 0
  have hq : quietInstr .brk interruptTicks [none] s =
      quietTicks interruptTicks [none] 6 (s.during 0 1 (s.pc + 1) s.ad (s.pc + 1) 0) := quietInstr_start hb.2.1
  refine completes_of_quiet (ticks := interruptTicks) (operand := [none]) rfl blind_interruptTicks ?_ ?_
  · rw [hq, harch, hb.2.2.2]
    rfl
  · rwa [hq]

/-- The state with S and P as RTI leaves them: three bytes pulled, the first into P. -/
def State.returned (s : State) : State :=
  { s with sp := s.sp + 1 + 1 + 1, p := pulledStatus (s.readByte (stackAddr (s.sp + 1))) }

/-- Where RTI goes: the word above P on the stack. -/
def returnAddr (s : State) : Word := mkWord (s.readByte (stackAddr (s.sp + 1 + 1 + 1))) (s.readByte (stackAddr (s.sp + 1 + 1)))

/-- RTI completes with P, then PC, pulled. -/
theorem completes_rti {s : State} (hb : s.AtBoundary) : Completes .rti s { s.returned.arch with pc := returnAddr s } := by
  have hq : ∃ ad addr d, quietInstr .rti returnTicks [none] s =
      ({ s.returned.during 0x40 6 (s.pc + 1) ad addr d with pc := returnAddr s } : State).fetch.commit := by
    refine ⟨zext16 (s.readByte (stackAddr (s.sp + 1 + 1))), stackAddr (s.sp + 1 + 1 + 1), s.readByte (stackAddr (s.sp + 1 + 1 + 1)), ?_⟩
    rw [returnTicks, quietInstr_start hb.2.1]
    show quietTicks _ _ 5 (s.during 0x40 1 (s.pc + 1) s.ad (s.pc + 1) 0x40) = _
    rw [quietTicks_during (by decide) rfl, stepStack_during, quietTicks_during (by decide) rfl, stepStack_during,
      quietTicks_during (by decide) rfl]
    show quietTicks _ _ 2 (s.returned.during 0x40 4 (s.pc + 1) s.ad (stackAddr (s.sp + 1 + 1)) _) = _
    rw [quietTicks_during (by decide) rfl]
    show quietTicks _ _ 1 (s.returned.during 0x40 5 (s.pc + 1) (zext16 (s.readByte (stackAddr (s.sp + 1 + 1))))
      (stackAddr (s.sp + 1 + 1 + 1)) _) = _
    rw [quietTicks_during (by decide) rfl]
    rfl
  obtain ⟨ad, addr, d, hq⟩ := hq
  refine completes_of_quiet (ticks := returnTicks) (operand := [none]) rfl ?_ ?_ ?_
  · simp only [returnTicks, List.forall_mem_cons, List.not_mem_nil, false_implies, implies_true, and_true]
    exact ⟨fun _ _ n _ => ⟨n, rfl⟩, fun _ _ n _ => ⟨n, rfl⟩, fun _ _ n _ => ⟨n, rfl⟩, fun _ _ n _ => ⟨n, rfl⟩,
      fun _ _ n _ => ⟨n, rfl⟩, fun _ _ n _ => ⟨n, rfl⟩⟩
  · rw [hq]
    rfl
  · rw [hq]
    exact fetch_commit_boundary rfl hb.2.2.2

theorem eq_of_writes_b {i : Instr} (hw : Part.b.writers.contains i.opcode = true) : i = .plp ∨ i = .rti ∨ i = .brk := by
  cases i <;> dsimp only [Instr.opcode] at hw <;> cases hw
  case plp => exact .inl rfl
  case rti => exact .inr (.inl rfl)
  case brk => exact .inr (.inr rfl)

/-- PLP, RTI and BRK leave P.B set. -/
theorem flag_b_of_writes {i : Instr} (hw : i.opcode ∈ Part.b.writers) {s t : State} (hb : s.AtBoundary) (h : exec i s = .next t) :
    t.flag .b = true := by
  have hflag : ∀ {r : Arch}, Completes i s r → r.flag .b = true → t.flag .b = true := by
    rintro r ⟨u, hu, rfl, -⟩ hr
    obtain rfl := Host.Outcome.next.inj (hu.symm.trans h)
    exact hr
  rcases eq_of_writes_b (List.contains_iff_mem.mpr hw) with rfl | rfl | rfl
  · exact hflag (completes_plp hb) (flag_b_pulledStatus _)
  · exact hflag (completes_rti hb) (flag_b_pulledStatus _)
  · exact hflag (completes_brk hb) (entered_flag_b _ _)

/-- Settles O51: no action of another instruction writes I, D or B, and PLP, RTI and BRK set B. -/
theorem interruptAndDecimalFlagWriters : Obligations.InterruptAndDecimalFlagWriters := by
  intro i s t h
  exact ⟨fun hw => exec_kept (q := .i) nofun hw h, fun hw => exec_kept (q := .d) nofun hw h,
    fun hw => exec_kept (q := .b) nofun hw h, fun hw hb => flag_b_of_writes hw hb h⟩

end Sys2Proof.Machine
end

section
/-!
The JAM state, and the invariant of a step and of reset: O11 and O12.
-/
namespace Sys2Proof.Machine

/-! ### The JAM state -/

/-- The opcodes of JAM (30_encoding.md R73). -/
def jamCodes : List Byte := [0x02, 0x12, 0x22, 0x32, 0x42, 0x52, 0x62, 0x72, 0x92, 0xB2, 0xD2, 0xF2]

theorem opcode_mem_jamCodes {i : Instr} (hj : isJam i = true) : i.opcode ∈ jamCodes := by
  cases i <;> cases hj <;> decide

theorem microprogramOf_jam {code : Byte} (hc : code ∈ jamCodes) : microprogramOf code = jamTicks := by
  simp only [jamCodes, List.mem_cons, List.not_mem_nil, or_false] at hc
  rcases hc with rfl | rfl | rfl | rfl | rfl | rfl | rfl | rfl | rfl | rfl | rfl | rfl <;> rfl

/-- IR is its opcode and its sub-cycle. -/
theorem ir_eq_irAt (s : State) : s.ir = irAt s.irOpcode s.subCycle := by
  have h7 : (7 : BitVec 11).toNat = 2 ^ 3 - 1 := rfl
  have := s.ir.isLt
  apply BitVec.eq_of_toNat_eq
  simp only [irAt, State.irOpcode, State.subCycle, BitVec.toNat_add, BitVec.toNat_shiftLeft, Nat.shiftLeft_eq, BitVec.toNat_setWidth,
    BitVec.toNat_ushiftRight, Nat.shiftRight_eq_div_pow, BitVec.toNat_ofNat, BitVec.toNat_and, h7, Nat.and_two_pow_sub_one_eq_mod]
  omega

theorem irOpcode_of_ir {s : State} {code : Byte} {k : Nat} (h : s.ir = irAt code k) (hk : k < 8) : s.irOpcode = code := by
  have := code.isLt
  apply BitVec.eq_of_toNat_eq
  simp only [State.irOpcode, h, irAt, BitVec.toNat_add, BitVec.toNat_shiftLeft, Nat.shiftLeft_eq, BitVec.toNat_setWidth,
    BitVec.toNat_ushiftRight, Nat.shiftRight_eq_div_pow, BitVec.toNat_ofNat]
  omega

theorem inJam_iff (s : State) : s.inJam = true ↔ s.sync = false ∧ s.subCycle = 1 ∧ s.irOpcode ∈ jamCodes := by
  simp only [State.inJam, Bool.and_eq_true, Bool.not_eq_true', beq_iff_eq, List.contains_iff_mem, and_assoc]
  rfl

/-- In the JAM state IR stands at sub-cycle 1 of a JAM, and no sequence is under way. -/
theorem State.Jammed.midway {s : State} (h : s.Jammed) : ∃ code ∈ jamCodes, s.Midway code 1 := by
  obtain ⟨hjam, -, -, -, hbrk⟩ := h
  obtain ⟨hsync, hsub, hcode⟩ := (inJam_iff s).mp hjam
  exact ⟨s.irOpcode, hcode, hsync, hsub ▸ ir_eq_irAt s, hbrk⟩

/-- T1 of a JAM leads to a boundary, where RES leads out, or to the JAM state again. -/
theorem microStep_jam {code : Byte} (hc : code ∈ jamCodes) {s : State} (hs : s.Midway code 1) (c : Seen) :
    (microStep jamTicks c s).AtBoundary ∨ (microStep jamTicks c s).Jammed := by
  have hact : jamTicks[s.subCycle]? = some jamTick := by rw [subCycle_of_ir hs.2.1 (by decide)]; rfl
  simp only [microStep, hact, jamTick, BitVec.add_sub_cancel]
  split
  · exact .inl ⟨rfl, rfl, rfl, hs.2.2⟩
  · exact .inr ⟨(inJam_iff _).mpr ⟨hs.1, subCycle_of_ir hs.2.1 (by decide), irOpcode_of_ir hs.2.1 (by decide) ▸ hc⟩, rfl, rfl, rfl, hs.2.2⟩

/-- The boundary of a JAM leads to its sub-cycle 1. -/
theorem cycle_enterJam {code : Byte} {s : State} (hb : s.AtBoundary) :
    (cycle (fun c s => microStep jamTicks c (s.enterOpcode code)) (some code) s).Midway code 1 := by
  obtain ⟨n, ks, d, c, he⟩ := cycle_eq (fun c s => microStep jamTicks c (s.enterOpcode code)) (some code) s
  have h0 : (State.enterOpcode { s.withEnv n ks with dout := d } code).Midway code 0 := ⟨rfl, irAt_zero code, hb.2.2.2⟩
  have hact : jamTicks[(State.enterOpcode { s.withEnv n ks with dout := d } code).subCycle]? = some fun _ s => s.readAtPc := by
    rw [subCycle_of_ir h0.2.1 (by decide)]; rfl
  rw [he]
  simp only [microStep, hact]
  exact ⟨h0.1, by show _ + 1 = _; rw [h0.2.1, irAt_succ], h0.2.2⟩

/-- A JAM leads to the JAM state, or out of it at once. -/
theorem exec_jam {i : Instr} (hj : isJam i = true) {s t : State} (hb : s.AtBoundary) (h : exec i s = .next t) :
    t.AtBoundary ∨ t.Jammed := by
  obtain rfl := Host.Outcome.next.inj ((exec_eq_runJam hj s).symm.trans h)
  have hmid := cycle_enterJam (code := i.opcode) hb
  obtain ⟨n, ks, j, d, c, he⟩ := jamCycle_eq (microStep jamTicks)
    (cycle (fun c s => microStep jamTicks c (s.enterOpcode i.opcode)) (some i.opcode) s)
  rw [he]
  exact (microStep_jam (opcode_mem_jamCodes hj) (by exact hmid) c).imp State.AtBoundary.afterTick State.Jammed.afterTick

/-- In the JAM state the micro-operation of a tick is T1 of the JAM. -/
theorem microTick_jam {code : Byte} (hc : code ∈ jamCodes) {s : State} (hs : s.Midway code 1) (c : Seen) :
    microTick c s = microStep jamTicks c s := by
  simp only [microTick, hs.1, Bool.false_eq_true, if_false, irOpcode_of_ir hs.2.1 (by decide), microprogramOf_jam hc]

/-- A stalled tick of the JAM state writes the address and data pins and the environment, and shifts irq_pip. -/
theorem jamStallTick_platform {s : State} (hrw : s.rw = false) (inp : Input) : ∃ n : Intr, n.irqPip.getLsbD 0 = false ∧
    (s.jamStallTick inp).platform = { s.withEnv n s.lines.tail with addr := 0xFFFF, dout := 0xFF } := by
  refine ⟨(s.intr.sample inp.lines (s.flag .i)).stallShift, ?_, ?_⟩
  · simp [Intr.stallShift]
  · simp [State.jamStallTick, State.stallTick, State.platform, State.sampled, State.withEnv, hrw]

/-- A tick of the JAM state is a stall there, or T1 of its JAM. -/
theorem tick_eq_of_jammed {s : State} (hs : s.Jammed) :
    (∃ n : Intr, n.irqPip.getLsbD 0 = false ∧ tick s = { s.withEnv n s.lines.tail with addr := 0xFFFF, dout := 0xFF }) ∨
      ∃ c, tick s = (microStep jamTicks c (s.sampled (s.busInput none))).afterTick := by
  obtain ⟨code, hc, hmid⟩ := hs.midway
  obtain ⟨hjam, -, -, hrw, -⟩ := hs
  rw [tick, coreTick, if_pos hjam]
  split
  · exact .inl (jamStallTick_platform hrw _)
  · rw [liveTick_platform, microTick_jam hc (by exact hmid)]
    exact .inr ⟨_, rfl⟩

theorem tick_jammed {s : State} (hs : s.Jammed) : (tick s).AtBoundary ∨ (tick s).Jammed := by
  obtain ⟨code, hc, hmid⟩ := hs.midway
  rcases tick_eq_of_jammed hs with ⟨n, -, he⟩ | ⟨c, he⟩ <;> rw [he]
  · obtain ⟨hjam, -, -, hrw, hbrk⟩ := hs
    exact .inr ⟨hjam, rfl, rfl, hrw, hbrk⟩
  · exact (microStep_jam hc (by exact hmid) c).imp State.AtBoundary.afterTick State.Jammed.afterTick

/-! ### The invariant -/

/-- An instruction that is no JAM runs from a boundary to the next. -/
theorem exec_boundary {i : Instr} (hj : isJam i = false) {s t : State} (hb : s.AtBoundary) (h : exec i s = .next t) :
    t.AtBoundary := by
  obtain ⟨operand, he⟩ := exec_eq_runFrom hj s
  obtain rfl := Host.Outcome.next.inj (he.symm.trans h)
  exact runFrom_boundary (obeys_microprogram hj).flows _ _ hb

theorem exec_tidy {i : Instr} {s t : State} (hs : s.mem.wf) (h : exec i s = .next t) : t.Tidy := by
  have henter : ∀ s : State, Part.mem.Kept s (s.enterOpcode i.opcode) := fun s => Part.mem.kept_enterOpcode s _
  cases hj : isJam i with
  | false =>
    obtain ⟨operand, he⟩ := exec_eq_runFrom hj s
    obtain rfl := Host.Outcome.next.inj (he.symm.trans h)
    exact runFrom_tidy ((obeys_microprogram hj).keeps .mem rfl) henter _ _ hs
  | true =>
    obtain rfl := Host.Outcome.next.inj ((exec_eq_runJam hj s).symm.trans h)
    have hjam := microStep_keeps (keeps_jamTicks .mem)
    exact jamCycle_tidy hjam (cycle_tidy (hjam.comp henter) _ hs).1

theorem exec_flag_b {i : Instr} {s t : State} (hb : s.AtBoundary) (hs : s.flag .b = true) (h : exec i s = .next t) :
    t.flag .b = true := by
  by_cases hw : i.opcode ∈ Part.b.writers
  · exact flag_b_of_writes hw hb h
  · exact Eq.trans (exec_kept (q := .b) nofun hw h) hs

theorem exec_inv {i : Instr} {s t : State} (hs : s.Inv) (hb : s.AtBoundary) (h : exec i s = .next t) : t.Inv := by
  obtain ⟨hwf, hflag, -, -⟩ := hs
  obtain ⟨hwf', hpip⟩ := exec_tidy hwf h
  refine ⟨hwf', exec_flag_b hb hflag h, hpip, ?_⟩
  cases hj : isJam i with
  | false => exact .inl (exec_boundary hj hb h)
  | true => exact exec_jam hj hb h

theorem takeInterrupt_tidy {s : State} (hs : s.mem.wf) : (takeInterrupt s).Tidy := by
  have h1 : ∀ act ∈ interruptTicks, Part.mem.Keeps act := keeps_interruptTicks rfl
  have h2 : ∀ s : State, Part.mem.Kept s s.enterInterrupt := fun _ => rfl
  exact runFrom_tidy h1 h2 none [] hs

theorem takeInterrupt_inv {s : State} (hs : s.mem.wf) (hb : s.AtBoundary) : (takeInterrupt s).Inv := by
  obtain ⟨harch, hbound⟩ := takeInterrupt_arch hb
  obtain ⟨hwf, hpip⟩ := takeInterrupt_tidy hs
  have hflag : (takeInterrupt s).arch.flag .b = true := by rw [harch, entered_flag_b]
  exact ⟨hwf, hflag, hpip, .inl hbound⟩

theorem tick_inv_of_jammed {s : State} (hs : s.Inv) (hj : s.Jammed) : (tick s).Inv := by
  obtain ⟨hwf, hflag, -, -⟩ := hs
  suffices h : (tick s).Tidy ∧ (tick s).flag .b = true from ⟨h.1.1, h.2, h.1.2, tick_jammed hj⟩
  rcases tick_eq_of_jammed hj with ⟨n, hn, he⟩ | ⟨c, he⟩ <;> rw [he]
  · exact ⟨⟨hwf, hn⟩, hflag⟩
  · have hkeeps : ∀ q : Part, q.Keeps (microStep jamTicks) := fun q => microStep_keeps (keeps_jamTicks q)
    exact ⟨tidy_afterTick ((hkeeps .mem).wf c (by exact hwf)),
      Eq.trans (hkeeps .b c (s.sampled (s.busInput none))) hflag⟩

/-- Settles O11: from a boundary by the run to the next one, from the JAM state by its tick. -/
theorem stepKeepsInvariant : Obligations.StepKeepsInvariant := by
  intro s t hs h
  obtain ⟨hwf, -, -, hb | hj⟩ := id hs
  · rw [step, if_pos hb.1] at h
    split at h
    · obtain rfl := Host.Outcome.next.inj h
      exact takeInterrupt_inv hwf hb
    · exact exec_inv hs hb h
  · obtain ⟨hsync, -, -⟩ := (inJam_iff s).mp hj.1
    rw [step, if_neg (by rw [hsync]; simp)] at h
    obtain rfl := Host.Outcome.next.inj h
    exact tick_inv_of_jammed hs hj

/-- Settles O12, by evaluating the fields of `State.reset`. -/
theorem invariantAtReset : Obligations.InvariantAtReset :=
  ⟨by decide, by decide, by decide, .inl ⟨rfl, rfl, rfl, rfl⟩⟩

end Sys2Proof.Machine
end

section
/-!
The RESET sequence, from a boundary and from construction: O13 and O14.
-/
namespace Sys2Proof.Machine

/-- The interrupt sequence with RESET, up to its last two ticks. -/
theorem reset_rest {operand : List (Option Byte)} {s : State} (h : s.brk.res = true) (pc ad addr : Word) (d : Byte) : ∃ d',
    quietTicks interruptTicks operand 6 (s.during 0 1 pc ad addr d) =
      quietTicks interruptTicks operand 2 (({ s with sp := s.sp - 1 - 1 - 1 } : State).masked.during 0 5 (savedPc s.brk pc)
        (vectorAddr s.brk + 1) (vectorAddr s.brk) d') := by
  rw [quietTicks_during (act := pushPcHighTick) (by decide) rfl, pushPcHighTick_eq]
  show ∃ d', quietTicks _ _ 5 (State.pushUnlessReset _ (s.during 0 2 (savedPc s.brk pc) ad addr _)).commit = _
  rw [pushUnlessReset_reset _ _ _ _ _ _ _ _ h, quietTicks_during (act := pushPcLowTick) (by decide) rfl, pushPcLowTick,
    pushUnlessReset_reset _ _ _ _ _ _ _ _ (by exact h), quietTicks_during (act := pushStatusTick) (by decide) rfl,
    pushStatusTick_reset _ _ _ _ _ _ _ _ (by exact h), quietTicks_during (act := vectorLowTick) (by decide) rfl,
    vectorLowTick_during]
  exact ⟨_, rfl⟩

/-- The last two ticks of the sequence leave the vector's low byte in AD. -/
theorem interrupt_tail_ad (s : State) (pc vector : Word) (d : Byte) :
    (quietTicks interruptTicks [] 2 (s.during 0 5 pc (vector + 1) vector d)).ad = zext16 (s.readByte vector) := by
  rw [quietTicks_during (act := vectorHighTick) (by decide) rfl, vectorHighTick_during,
    quietTicks_during (act := handlerTick) (by decide) rfl]
  rfl

theorem takeInterrupt_ad_of_reset {s : State} (hb : s.AtBoundary) (hres : (recognised s).res = true) :
    (takeInterrupt s).ad = zext16 (s.readByte 0xFFFC) := by
  obtain ⟨m, ks, d, hc⟩ := cycle_enterInterrupt hb
  obtain ⟨m', ks', hq⟩ := runTicks_quiet blind_interruptTicks [] 6
    (({ s with p := setFlag s.p .b false, brk := recognised s } : State).during 0 1 s.pc s.ad s.pc d) m ks
  obtain ⟨d', hr⟩ := reset_rest (operand := []) (s := { s with p := setFlag s.p .b false, brk := recognised s }) hres s.pc s.ad s.pc d
  have ht : takeInterrupt s = _ := (congrArg (runTicks interruptTicks [] 6) hc).trans hq
  have hv : vectorAddr (recognised s) = 0xFFFC := if_pos hres
  rw [ht, hr, hv]
  exact interrupt_tail_ad _ _ _ _

/-- What the RESET sequence leaves of the programmer-visible state. -/
theorem entered_reset (r : Arch) {f : BrkFlags} (h : f.res = true) :
    r.entered f = ({ r with sp := r.sp - 1 - 1 - 1 } : Arch).enterHandler 0xFFFC := by
  have hv : vectorAddr f = 0xFFFC := if_pos h
  rw [Arch.entered, if_pos h, hv]

/-- Settles O13: the sequence with RESET enters the handler at 0xFFFC, its pushes unwritten. -/
theorem resetSequenceValues : Obligations.ResetSequenceValues := by
  intro s hb hres
  obtain ⟨harch, hsync, hrw, haddr, hbrk⟩ := takeInterrupt_arch hb
  rw [entered_reset _ hres] at harch
  have hp : (takeInterrupt s).p = setFlag (setFlag (setFlag s.p .b false) .i true) .b true := congrArg Arch.p harch
  have hsp : s.sp - 1 - 1 - 1 = s.sp - 3 := by bv_omega
  refine ⟨congrArg Arch.pc harch, (congrArg Arch.sp harch).trans hsp, ?_, ?_, hbrk, haddr, hsync, hrw, congrArg Arch.a harch,
    congrArg Arch.x harch, congrArg Arch.y harch, congrArg Arch.mem harch, fun f hi hbf => ?_, takeInterrupt_ad_of_reset hb hres⟩
  · simp [State.flag, hp]
  · simp [State.flag, hp]
  · simp [State.flag, hp, hi.symm, hbf.symm]

/-! ### Construction -/

theorem construct_stalls (po : PowerOn) (mem : Memory) (lines : List Lines) (l : Lines) :
    (State.construct po mem lines).stalls l = false := by
  simp [State.stalls, State.isNew, State.construct]

/-- No tick of a new core is stalled before its first. -/
theorem awaitReady_construct (stall : State → Input → State) (data : Option Byte) (po : PowerOn) (mem : Memory) (lines ls : List Lines) :
    awaitReady stall data ls (State.construct po mem lines) = State.construct po mem lines := by
  cases ls with
  | nil => rfl
  | cons l ls => rw [awaitReady, construct_stalls, if_neg (by simp)]

theorem requests_construct (po : PowerOn) (mem : Memory) (lines : List Lines) (inp : Input) :
    ((State.construct po mem lines).sampled inp).requests = { irq := false, nmi := false, res := true } := by
  have hirq : ∀ b : Bool, (if b = true then (0 : Word) ||| 1 else 0).getLsbD 2 = false := by decide
  have hnmi : ∀ b : Bool, decide ((if b = true then (0 : Word) ||| 1 else 0) &&& 0xFFFC ≠ 0) = false := by decide
  simp only [State.requests, BrkFlags.mk.injEq]
  exact ⟨hirq _, hnmi _, rfl⟩

theorem recognised_construct (po : PowerOn) (mem : Memory) (lines : List Lines) :
    recognised (State.construct po mem lines) = { irq := false, nmi := false, res := true } := by
  rw [recognised, awaitReady_construct]
  exact requests_construct _ _ _ _

/-- The state the boundary of the RESET sequence of a new core leaves, but for the pins and the environment. -/
def State.constructed (po : PowerOn) (mem : Memory) : State :=
  { State.construct po mem [] with p := setFlag po.p .b false, brk := { irq := false, nmi := false, res := true } }

/-- The tick of a boundary that recognises an interrupt or a reset: the boundary, and T0 of the sequence. -/
theorem microTick_of_requests {s : State} (hs : s.sync = true) (hr : s.requests.any = true) (c : Seen) :
    microTick c s = ({ s.enterInterrupt with rw := false, ir := irAt 0 1 } : State).readAtPc := by
  have hcode : s.enterInterrupt.irOpcode = 0 := irOpcode_of_ir (code := 0) (k := 0) rfl (by decide)
  have hsub : s.enterInterrupt.subCycle = 0 := subCycle_of_ir (code := 0) rfl (by decide)
  have hprog : microprogramOf 0 = interruptTicks := rfl
  simp only [microTick, hs, if_true, State.boundary, hr, hcode, hprog, microStep, hsub]
  rfl

/-- The first tick of a new core is the boundary of the RESET sequence and its T0. -/
theorem coreTick_construct (po : PowerOn) (mem : Memory) (lines : List Lines) (inp : Input) :
    ∃ n : Intr, coreTick inp (State.construct po mem lines) =
      ((State.constructed po mem).during 0 1 po.pc 0 po.pc inp.din).withEnv { n with resLatch := false } lines := by
  have hreq := requests_construct po mem lines inp
  rw [coreTick, if_neg (by rw [construct_stalls]; simp), State.liveTick, microTick_of_requests rfl (by rw [hreq]; rfl),
    State.enterInterrupt, hreq]
  exact ⟨((State.construct po mem lines).sampled inp).intr.keepYoungest.shift, rfl⟩

/-- The state during the interrupt sequence, no line asserted: what `during` says, but for the data pins and the interrupt detection. -/
def State.InSequence (u s : State) (k : Nat) (pc ad addr : Word) : Prop := ∃ d n, u = (s.during 0 k pc ad addr d).withEnv n []

/-- A tick of the interrupt sequence, no line asserted. -/
theorem State.InSequence.tick_eq {u s : State} {k : Nat} {pc ad addr : Word} (h : u.InSequence s k pc ad addr) (hk : k < 8)
    {act : Action} (ha : interruptTicks[k]? = some act) : ∃ n, tick u =
      (act { dbus := s.readByte addr, res := false } (s.during 0 (k + 1) pc ad addr (s.readByte addr))).commit.withEnv n [] := by
  obtain ⟨d, n, rfl⟩ := h
  have hsub : ∀ d n, ((s.during 0 k pc ad addr d).withEnv n []).subCycle = k := fun d n => irAt_and 0 hk
  have hcode : ∀ d n, ((s.during 0 k pc ad addr d).withEnv n []).irOpcode = 0 := fun d n => irOpcode_of_ir rfl hk
  have hmicro : ∀ c d n, microTick c ((s.during 0 k pc ad addr d).withEnv n []) = act c ((s.during 0 (k + 1) pc ad addr d).withEnv n []) := by
    intro c d n
    have hsync : ((s.during 0 k pc ad addr d).withEnv n []).sync = false := rfl
    have hprog : microprogramOf 0 = interruptTicks := rfl
    simp only [microTick, hsync, Bool.false_eq_true, if_false, hcode, hprog, microStep, hsub, ha]
    congr 1
    show _ = State.withEnv { s.during 0 (k + 1) pc ad addr d with ir := _ } _ _
    rw [← irAt_succ]
    rfl
  obtain ⟨m, hm⟩ := blind_interruptTicks act (List.mem_of_getElem? ha) { dbus := s.readByte addr, res := false }
    (s.during 0 (k + 1) pc ad addr (s.readByte addr)) (n.sample Lines.idle (s.flag .i)) []
  refine ⟨m.shift, ?_⟩
  show (coreTick { din := s.readByte addr, lines := Lines.idle } _).platform = _
  rw [coreTick, if_neg (by simp [State.stalls, Lines.idle]), liveTick_platform]
  show (microTick { dbus := s.readByte addr, res := false }
    ((s.during 0 k pc ad addr (s.readByte addr)).withEnv (n.sample Lines.idle (s.flag .i)) [])).afterTick = _
  rw [hmicro, hm]
  rfl


theorem ticks_succ (n : Nat) (s : State) : ticks (n + 1) s = tick (ticks n s) := by
  induction n generalizing s with
  | zero => rfl
  | succ n ih => exact ih (tick s)

/-- The state at a read cycle of the interrupt sequence. -/
structure ReadsAt (u : State) (addr : Word) : Prop where
  addr : u.addr = addr
  rw : u.rw = false
  sync : u.sync = false

theorem State.InSequence.readsAt {u s : State} {k : Nat} {pc ad addr : Word} (h : u.InSequence s k pc ad addr) : ReadsAt u addr := by
  obtain ⟨d, n, rfl⟩ := h
  exact ⟨rfl, rfl, rfl⟩

section
variable {u s : State} {pc ad addr : Word}

theorem State.InSequence.pushPcHigh (h : u.InSequence s 1 pc ad addr) (hres : s.brk.res = true) :
    (tick u).InSequence { s with sp := s.sp - 1 } 2 (savedPc s.brk pc) ad (stackAddr s.sp) := by
  obtain ⟨n, he⟩ := h.tick_eq (by decide) (act := pushPcHighTick) rfl
  rw [he, pushPcHighTick_eq]
  exact ⟨_, n, congrArg (·.withEnv n []) (pushUnlessReset_reset s 0 2 (savedPc s.brk pc) ad addr _ _ hres)⟩

theorem State.InSequence.pushPcLow (h : u.InSequence s 2 pc ad addr) (hres : s.brk.res = true) :
    (tick u).InSequence { s with sp := s.sp - 1 } 3 pc ad (stackAddr s.sp) := by
  obtain ⟨n, he⟩ := h.tick_eq (by decide) (act := pushPcLowTick) rfl
  rw [he]
  exact ⟨_, n, congrArg (·.withEnv n []) (pushUnlessReset_reset s 0 3 pc ad addr _ _ hres)⟩

theorem State.InSequence.pushStatus (h : u.InSequence s 3 pc ad addr) (hres : s.brk.res = true) :
    (tick u).InSequence { s with sp := s.sp - 1 } 4 pc (vectorAddr s.brk) (stackAddr s.sp) := by
  obtain ⟨n, he⟩ := h.tick_eq (by decide) (act := pushStatusTick) rfl
  rw [he, pushStatusTick_reset _ _ _ _ _ _ _ _ hres]
  exact ⟨_, n, rfl⟩

theorem State.InSequence.vectorLow (h : u.InSequence s 4 pc ad addr) : (tick u).InSequence s.masked 5 pc (ad + 1) ad := by
  obtain ⟨n, he⟩ := h.tick_eq (by decide) (act := vectorLowTick) rfl
  exact ⟨_, n, he⟩

theorem State.InSequence.vectorHigh (h : u.InSequence s 5 pc ad addr) :
    (tick u).InSequence s 6 pc (zext16 (s.readByte addr)) ad := by
  obtain ⟨n, he⟩ := h.tick_eq (by decide) (act := vectorHighTick) rfl
  exact ⟨_, n, he⟩

theorem State.InSequence.handler (h : u.InSequence s 6 pc ad addr) :
    (tick u).addr = highOver (s.readByte addr) ad ∧ (tick u).sync = true ∧ (tick u).rw = false := by
  obtain ⟨n, he⟩ := h.tick_eq (by decide) (act := handlerTick) rfl
  rw [he]
  exact ⟨rfl, rfl, rfl⟩

end

/-- The ticks of a new core, no line asserted, up to the one that sets up the first fetch. -/
theorem ticks_construct (po : PowerOn) (mem : Memory) : let s := State.construct po mem []
    ReadsAt (ticks 1 s) po.pc ∧ ReadsAt (ticks 2 s) (stackAddr po.sp) ∧ ReadsAt (ticks 3 s) (stackAddr (po.sp - 1)) ∧
      ReadsAt (ticks 4 s) (stackAddr (po.sp - 1 - 1)) ∧ ReadsAt (ticks 5 s) 0xFFFC ∧ ReadsAt (ticks 6 s) 0xFFFD ∧
      (ticks 7 s).addr = mkWord (s.readByte 0xFFFD) (s.readByte 0xFFFC) ∧ (ticks 7 s).sync = true ∧ (ticks 7 s).rw = false := by
  intro s
  have h1 : (ticks 1 s).InSequence (State.constructed po mem) 1 po.pc 0 po.pc := by
    obtain ⟨n, he⟩ := coreTick_construct po mem [] (s.busInput none)
    exact ⟨(s.busInput none).din, { n with resLatch := false }, congrArg State.platform he⟩
  have h2 := h1.pushPcHigh rfl
  rw [← ticks_succ] at h2
  have h3 := h2.pushPcLow rfl
  rw [← ticks_succ] at h3
  have h4 := h3.pushStatus rfl
  rw [← ticks_succ] at h4
  have h5 := h4.vectorLow
  rw [← ticks_succ] at h5
  have h6 := h5.vectorHigh
  rw [← ticks_succ] at h6
  have h7 := h6.handler
  rw [← ticks_succ] at h7
  exact ⟨h1.readsAt, h2.readsAt, h3.readsAt, h4.readsAt, h5.readsAt, h6.readsAt, h7⟩

/-- Settles O14: nothing stalls the first tick of a new core, and its latched reset starts the sequence. -/
theorem constructionRunsReset : Obligations.ConstructionRunsReset := by
  refine ⟨fun po mem lines => by rw [recognised_construct], fun po mem lines inp => ?_, fun po mem => ?_⟩
  · obtain ⟨n, he⟩ := coreTick_construct po mem lines inp
    intro t
    rw [show t = _ from he]
    exact ⟨rfl, rfl, rfl, rfl, rfl, rfl, rfl⟩
  · intro s
    obtain ⟨h1, h2, h3, h4, h5, h6, haddr, hsync, hrw⟩ := ticks_construct po mem
    have hsp : po.sp - 1 - 1 = po.sp - 2 := by bv_omega
    refine ⟨h1.addr, h2.addr, h3.addr, hsp ▸ h4.addr, h5.addr, h6.addr, haddr, hsync, fun k hk => ?_, fun k hpos hk => ?_⟩
    · interval_cases k
      exacts [rfl, h1.rw, h2.rw, h3.rw, h4.rw, h5.rw, h6.rw, hrw]
    · interval_cases k
      exacts [h1.sync, h2.sync, h3.sync, h4.sync, h5.sync, h6.sync]

end Sys2Proof.Machine
end

section
/-!
The laws of memory: O54.
-/
namespace Sys2Proof.Machine

/-- A canonical memory lists nothing outside the address space. -/
theorem Memory.read_outside {m : Memory} (h : m.wf) {k : Nat} (hk : 65536 ≤ k) : m.read k = Memory.blank k := by
  induction m with
  | nil => rfl
  | cons c m ih =>
    obtain ⟨j, w⟩ := c
    obtain ⟨-, hj, -, hm⟩ := Memory.wf_cons.mp h
    rw [Memory.read_cons, if_neg (by omega), ih hm]

/-- Two canonical memories that read alike at every address of the bus are one memory. -/
theorem Memory.ext_word {m n : Memory} (hm : m.wf) (hn : n.wf) (h : ∀ k : Word, m.read k.toNat = n.read k.toNat) : m = n := by
  refine Memory.ext hm hn fun k => ?_
  by_cases hk : k < 65536
  · simpa [Nat.mod_eq_of_lt hk] using h (BitVec.ofNat 16 k)
  · rw [Memory.read_outside hm (Nat.le_of_not_lt hk), Memory.read_outside hn (Nat.le_of_not_lt hk)]

/-- Settles O54: a written memory reads by `Memory.read_write`, and a canonical one is determined by what the bus reads. -/
theorem memoryReadsLastWrite : Obligations.MemoryReadsLastWrite := by
  intro m hm
  refine ⟨fun k v j => ?_, Memory.wf_write_word hm, fun n hn h => Memory.ext_word hm hn h⟩
  rw [Memory.read_write hm]
  exact if_congr (BitVec.toNat_inj.trans eq_comm) rfl rfl

end Sys2Proof.Machine
end

section
/-!
SUPPORT. The ticks of an instruction that nothing stalls and no interrupt precedes: the tick function does what the instruction's run does,
sub-cycle by sub-cycle (40_execution.md R106, R107).
-/
namespace Sys2Proof.Machine

/-! ### Decoding what is fetched -/

theorem microprogramOf_opcode (i : Instr) : microprogramOf i.opcode = microprogram i := by
  cases i <;> dsimp only [Instr.opcode, microprogram] <;> rfl

theorem decodeInstr_opcode (op b1 b2 : Byte) : (decodeInstr op b1 b2).opcode = op := by
  obtain ⟨n, hn, rfl⟩ : ∃ n < 256, op = BitVec.ofNat 8 n := ⟨op.toNat, op.isLt, by simp⟩
  interval_cases n <;> rfl

/-- The operand bytes of a decoded instruction are the first of the bytes after its opcode: each opcode has one of four operand
shapes. -/
theorem decodeInstr_operandBytes (op b1 b2 : Byte) : (decodeInstr op b1 b2).operandBytes <+: [b1, b2] := by
  have implied : [] <+: [b1, b2] := ⟨[b1, b2], rfl⟩
  have byte : [b1] <+: [b1, b2] := ⟨[b2], rfl⟩
  have offset : [offsetByte b1.toInt] <+: [b1, b2] := ⟨[b2], by simp [offsetByte]⟩
  have word : wordBytes (mkWord b2 b1) <+: [b1, b2] := by simp [wordBytes]
  obtain ⟨n, hn, rfl⟩ : ∃ n < 256, op = BitVec.ofNat 8 n := ⟨op.toNat, op.isLt, by simp⟩
  interval_cases n <;> assumption

/-! ### Ticks that nothing stalls -/

theorem State.Unstalled.line_rdy {s : State} (h : s.Unstalled) : s.line.rdy = false := by
  rw [State.line]
  match hl : s.lines with
  | [] => rfl
  | l :: _ => exact h l (by simp [hl])

theorem awaitReady_of_unstalled {s : State} (h : s.Unstalled) (stall : State → Input → State) (data : Option Byte) :
    awaitReady stall data s.lines s = s := by
  match hl : s.lines with
  | [] => rfl
  | l :: _ => rw [awaitReady, if_neg (by simp [State.stalls, h l (by simp [hl])])]

theorem cycle_of_unstalled {s : State} (h : s.Unstalled) (act : Action) (data : Option Byte) :
    cycle act data s = (s.liveTick act (s.busInput data)).platform := by
  rw [cycle, cycleWith, awaitReady_of_unstalled h]

theorem tick_of_unstalled {s : State} (h : s.Unstalled) : tick s = cycle microTick none s := by
  rw [cycle_of_unstalled h, tick, coreTick, if_neg (by simp [State.stalls, State.busInput, h.line_rdy])]

theorem recognised_of_unstalled {s : State} (h : s.Unstalled) : recognised s = (s.sampled (s.busInput none)).requests := by
  rw [recognised, awaitReady_of_unstalled h]

/-- A byte given on the bus makes no difference where it is the one that memory holds there. -/
theorem busInput_of_supplied {s : State} {data : Option Byte} (h : ∀ v, data = some v → v = s.readByte s.addr) :
    s.busInput data = s.busInput none := by
  cases data with
  | none => rfl
  | some v => rw [h v rfl]; rfl

theorem EnvBlind.lines_eq {act : Action} (h : EnvBlind act) (c : Seen) (s : State) : (act c s).lines = s.lines := by
  obtain ⟨m, hm⟩ := h c s s.intr s.lines
  rw [show act c s = _ from hm]
  rfl

theorem cycle_unstalled {act : Action} (hb : EnvBlind act) {s : State} (h : s.Unstalled) (data : Option Byte) :
    (cycle act data s).Unstalled := by
  rw [cycle_of_unstalled h]
  intro l hl
  have hlines : (s.liveTick act (s.busInput data)).platform.lines = s.lines.tail := congrArg List.tail (hb.lines_eq _ _)
  exact h l (List.mem_of_mem_tail (hlines ▸ hl))

/-- In the midst of an instruction a tick is its next sub-cycle. -/
theorem tick_of_midway {i : Instr} {u : State} {k : Nat} (hu : u.Unstalled) (hm : u.Midway i.opcode k) (hk : k < 8) :
    tick u = cycle (microStep (microprogram i)) none u := by
  have hcode : ∀ inp, (u.sampled inp).irOpcode = i.opcode := fun _ => irOpcode_of_ir hm.2.1 hk
  have hmicro : ∀ c inp, microTick c (u.sampled inp) = microStep (microprogram i) c (u.sampled inp) := by
    intro c inp
    rw [microTick, if_neg (by rw [show (u.sampled inp).sync = false from hm.1]; simp), hcode, microprogramOf_opcode]
  rw [tick_of_unstalled hu, cycle_of_unstalled hu, cycle_of_unstalled hu]
  simp only [State.liveTick, hmicro]

/-- The state at a boundary that starts this instruction: it is fetched, nothing is recognised, and nothing will stall the core. -/
structure State.Starts (s : State) (i : Instr) : Prop where
  boundary : s.AtBoundary
  unstalled : s.Unstalled
  unrequested : recognises s = false
  fetched : fetched s = i

theorem State.Starts.opcode {s : State} {i : Instr} (h : s.Starts i) : s.readByte s.addr = i.opcode := by
  obtain ⟨⟨-, hrw, -, -⟩, -, -, rfl⟩ := h
  rw [Machine.fetched, decodeInstr_opcode, State.dbus, hrw]
  rfl

theorem State.Starts.operandBytes {s : State} {i : Instr} (h : s.Starts i) :
    i.operandBytes <+: [s.readByte (s.pc + 1), s.readByte (s.pc + 2)] := by
  obtain rfl := h.fetched
  exact decodeInstr_operandBytes _ _ _

/-- The first tick of an instruction enters it and performs its T0. -/
theorem State.Starts.tick_eq {s : State} {i : Instr} (h : s.Starts i) :
    tick s = cycle (fun c s => microStep (microprogram i) c (s.enterOpcode i.opcode)) (some i.opcode) s := by
  have hbus : s.busInput (some i.opcode) = s.busInput none := busInput_of_supplied fun v hv => by
    rw [h.opcode, Option.some.inj hv]
  have hreq : ¬ (s.sampled (s.busInput none)).requests.any = true := by
    rw [← recognised_of_unstalled h.unstalled]
    exact Bool.eq_false_iff.mp h.unrequested
  have hdbus : s.dbus (s.busInput none).din = i.opcode := (if_neg (by simp [h.boundary.2.1])).trans h.opcode
  have hcode : ∀ u : State, (u.enterOpcode i.opcode).irOpcode = i.opcode := fun u =>
    irOpcode_of_ir (k := 0) (irAt_zero _) (by decide)
  rw [tick_of_unstalled h.unstalled, cycle_of_unstalled h.unstalled, cycle_of_unstalled h.unstalled, hbus]
  simp only [State.liveTick, hdbus]
  rw [microTick, if_pos (by exact h.boundary.1), State.boundary, if_neg hreq, hcode, microprogramOf_opcode]

end Sys2Proof.Machine
end

section
/-!
SUPPORT. Instructions that go through their microprogram sub-cycle by sub-cycle: their ticks are their quiet run, but for the environment.
-/
namespace Sys2Proof.Machine

/-- The microprogram of the instruction goes through its sub-cycles one by one, blind to the environment. -/
structure Linear (i : Instr) : Prop where
  blind : ∀ act ∈ microprogram i, EnvBlind act
  steady : ∀ k act, (microprogram i)[k]? = some act → k + 1 < (microprogram i).length → Steady act
  length_le : (microprogram i).length ≤ 8

section
variable {i : Instr} {s : State}

theorem Linear.microStep_midway (hl : Linear i) {u : State} {k : Nat} (hm : u.Midway i.opcode k)
    (hk : k + 1 < (microprogram i).length) (c : Seen) : (microStep (microprogram i) c u).Midway i.opcode (k + 1) := by
  have hact : (microprogram i)[u.subCycle]? = some (microprogram i)[k] := by
    rw [subCycle_of_ir hm.2.1 (by have := hl.length_le; omega), List.getElem?_eq_getElem]
  have hst := hl.steady k _ (List.getElem?_eq_getElem (by omega)) hk
  obtain ⟨hsync, hir, hbrk⟩ := hm
  simp only [microStep, hact]
  exact ⟨(hst.sync _ _).trans hsync, (hst.ir _ _).trans (by rw [← irAt_succ, ← hir]), (hst.brk _ _).trans hbrk⟩

/-- The first tick of an instruction, as an action, is blind to the environment. -/
theorem Linear.blind_enter (hl : Linear i) : EnvBlind fun c s => microStep (microprogram i) c (s.enterOpcode i.opcode) :=
  fun c s n ls => microStep_blind hl.blind c (s.enterOpcode i.opcode) n.keepYoungest ls

/-- Before the last tick of an instruction the core stands at the sub-cycle that counts the ticks so far. -/
theorem Linear.ticks_midway (hl : Linear i) (hs : s.Starts i) {k : Nat} (hk : k + 1 < (microprogram i).length) :
    (ticks (k + 1) s).Unstalled ∧ (ticks (k + 1) s).Midway i.opcode (k + 1) := by
  induction k with
  | zero =>
    show (tick s).Unstalled ∧ (tick s).Midway i.opcode 1
    rw [hs.tick_eq]
    obtain ⟨n, ks, d, c, he⟩ := cycle_eq (fun c s => microStep (microprogram i) c (s.enterOpcode i.opcode)) (some i.opcode) s
    have hmid : (State.enterOpcode { s.withEnv n ks with dout := d } i.opcode).Midway i.opcode 0 :=
      ⟨rfl, irAt_zero _, hs.boundary.2.2.2⟩
    refine ⟨cycle_unstalled hl.blind_enter hs.unstalled _, ?_⟩
    rw [he]
    exact hl.microStep_midway hmid hk c
  | succ k ih =>
    obtain ⟨hu, hm⟩ := ih (by omega)
    rw [ticks_succ, tick_of_midway hu hm (by have := hl.length_le; omega)]
    obtain ⟨n, ks, d, c, he⟩ := cycle_eq (microStep (microprogram i)) none (ticks (k + 1) s)
    refine ⟨cycle_unstalled (microStep_blind hl.blind) hu _, ?_⟩
    rw [he]
    exact hl.microStep_midway (by exact hm) hk c

/-- Memory holds, where sub-cycle `k` reads it, the operand byte that the run of the instruction is given there. -/
def Supplied (i : Instr) (s : State) (k : Nat) : Prop :=
  ∀ v, (operandReads i)[k]?.getD none = some v → v = (ticks k s).readByte (ticks k s).addr

/-- A run of sub-cycles is as many ticks, where memory holds the operand bytes. -/
theorem runTicks_eq_ticks {n k : Nat} {u : State} (hm : ∀ j < n, (ticks j u).Unstalled ∧ (ticks j u).Midway i.opcode (k + j))
    (hk : k + n ≤ 8)
    (hd : ∀ j < n, ∀ v, (operandReads i)[k + j]?.getD none = some v → v = (ticks j u).readByte (ticks j u).addr) :
    runTicks (microprogram i) (operandReads i) n u = ticks n u := by
  induction n generalizing k u with
  | zero => rfl
  | succ n ih =>
    obtain ⟨hu, hmid⟩ : u.Unstalled ∧ u.Midway i.opcode k := hm 0 (by omega)
    have hdata : ∀ v, (operandReads i)[k]?.getD none = some v → v = u.readByte u.addr := hd 0 (by omega)
    have hcycle : cycle (microStep (microprogram i)) ((operandReads i)[k]?.getD none) u = tick u := by
      rw [tick_of_midway hu hmid (by omega), cycle_of_unstalled hu, cycle_of_unstalled hu, busInput_of_supplied hdata]
    have hadd : ∀ j, k + 1 + j = k + (j + 1) := by omega
    rw [runTicks, if_neg (by rw [show u.sync = false from hmid.1]; simp), subCycle_of_ir hmid.2.1 (by omega), hcycle]
    exact ih (fun j hj => hadd j ▸ hm (j + 1) (by omega)) (by omega) fun j hj => hadd j ▸ hd (j + 1) (by omega)

theorem Linear.ticks_eq_runTicks (hl : Linear i) (hs : s.Starts i) {j : Nat} (hj : j < (microprogram i).length)
    (hd : ∀ k, 0 < k → k ≤ j → Supplied i s k) :
    ticks (j + 1) s = runTicks (microprogram i) (operandReads i) j (tick s) := by
  have := hl.length_le
  refine (runTicks_eq_ticks (n := j) (k := 1) (fun k hk => ?_) (by omega) fun k hk => ?_).symm
  · exact Nat.add_comm k 1 ▸ hl.ticks_midway hs (by omega)
  · exact Nat.add_comm k 1 ▸ hd (k + 1) (by omega) (by omega)

/-- The state after the first tick of an instruction, but for the environment. -/
def quietStart (i : Instr) (s : State) : State :=
  quietCycle (fun c s => microStep (microprogram i) c (s.enterOpcode i.opcode)) (some i.opcode) s

theorem quietStart_eq {t : Action} {ts : List Action} (hp : microprogram i = t :: ts) (hs : s.rw = false) :
    quietStart i s = (t { dbus := i.opcode, res := false } (s.during i.opcode 1 (s.pc + 1) s.ad s.addr i.opcode)).commit := by
  have hmicro : ∀ c (s : State), microStep (t :: ts) c (s.enterOpcode i.opcode) = microStep [t] c (s.enterOpcode i.opcode) := by
    intro c s
    have hsub : (s.enterOpcode i.opcode).subCycle = 0 := subCycle_of_ir (irAt_zero i.opcode) (by decide)
    simp only [microStep, hsub, List.getElem?_cons_zero]
  rw [quietStart, hp]
  simp only [hmicro]
  exact quietInstr_start (ts := []) (operand := []) hs

/-- The ticks of an instruction are its quiet run, but for the environment. -/
theorem Linear.ticks_quiet (hl : Linear i) (hs : s.Starts i) {j : Nat} (hj : j < (microprogram i).length)
    (hd : ∀ k, 0 < k → k ≤ j → Supplied i s k) :
    ∃ n ls, ticks (j + 1) s = (quietTicks (microprogram i) (operandReads i) j (quietStart i s)).withEnv n ls := by
  obtain ⟨m, ks, hc⟩ := cycle_quiet hl.blind_enter (some i.opcode) s s.intr s.lines
  rw [hl.ticks_eq_runTicks hs hj hd, hs.tick_eq, show cycle _ _ s = _ from hc]
  exact runTicks_quiet hl.blind _ _ _ m ks

/-- A step that runs an instruction is as many ticks as its microprogram has. -/
theorem Linear.step_eq_ticks (hl : Linear i) (hs : s.Starts i) (hx : exec i s = runInstr i (microprogram i) s)
    (hpos : 0 < (microprogram i).length) (hd : ∀ k, 0 < k → Supplied i s k) : step s = .next (ticks (microprogram i).length s) := by
  have hrun := hl.ticks_eq_runTicks hs (Nat.sub_lt hpos Nat.one_pos) fun k hk _ => hd k hk
  rw [Nat.sub_add_cancel hpos, hs.tick_eq] at hrun
  rw [step, if_pos hs.boundary.1, if_neg (by rw [hs.unrequested]; simp), hs.fetched, hx, hrun]
  rfl

end

end Sys2Proof.Machine
end

section
/-!
The bus cycles of read-modify-write instructions: O57.
-/
namespace Sys2Proof.Machine

/-! ### The operand and the address of an instruction -/

/-- The operand bytes of an instruction by its addressing mode. -/
theorem operandReads_eq {i : Instr} (ho : operatesOnOperand i = true) : operandReads i =
    if modeOf i = .abs ∨ modeOf i = .abx ∨ modeOf i = .aby then [none, some (lo (operandWord i)), some (hi (operandWord i))]
    else [none, some (lo (operandWord i))] := by
  cases i <;> cases ho <;> simp [operandReads, modeOf, operandWord, Instr.operandBytes, wordBytes]

theorem exec_eq_runInstr {i : Instr} (ho : operatesOnOperand i = true) (s : State) : exec i s = runInstr i (microprogram i) s := by
  cases i <;> cases ho <;> rfl

theorem operates_of_readWrite {i : Instr} (ha : accessOf i = .readWrite) : operatesOnOperand i = true := by
  cases i <;> cases ha <;> rfl

theorem modeOf_readWrite {i : Instr} (ha : accessOf i = .readWrite) : modeOf i ∈ [Mode.zp, .zpx, .abs, .abx, .aby, .idx, .idy] := by
  cases i <;> cases ha <;> simp [modeOf]

/-- The addressing ticks of a read-modify-write instruction come to its effective address. -/
theorem addresses_readWrite {i : Instr} (ha : accessOf i = .readWrite) {s : State} (hb : s.AtBoundary) :
    ∃ len base, Addresses (modeOf i) .readWrite i (operandReads i) len (effectiveAddress i s) base s := by
  have hop := operandReads_eq (operates_of_readWrite ha)
  have hmode := modeOf_readWrite ha
  simp only [List.mem_cons, List.not_mem_nil, or_false] at hmode
  rcases hmode with hm | hm | hm | hm | hm | hm | hm <;> rw [hop, hm] <;> simp only [effectiveAddress, hm]
  · exact ⟨_, _, addresses_zp hb _ _⟩
  · exact ⟨_, _, addresses_zpx hb _ _⟩
  · exact ⟨_, _, addresses_abs hb _ _⟩
  · exact ⟨_, _, addresses_abx hb _ (by decide)⟩
  · exact ⟨_, _, addresses_aby hb _ (by decide)⟩
  · exact ⟨_, _, addresses_idx hb _ _⟩
  · exact ⟨_, _, addresses_idy hb _ (by decide)⟩

/-- The final step of a read-modify-write instruction. -/
theorem microprogram_modifies {i : Instr} (ha : accessOf i = .readWrite) :
    ∃ f effect, microprogram i = modifyTicks (modeOf i) f ∧ ModifiesAs f effect := by
  cases i <;> cases ha
  case incZp | incZpx | incAbs | incAbx => exact ⟨_, _, rfl, modifiesAs_incStep⟩
  case decZp | decZpx | decAbs | decAbx => exact ⟨_, _, rfl, modifiesAs_decStep⟩
  case aslZp | aslZpx | aslAbs | aslAbx => exact ⟨_, _, rfl, modifiesAs_aslStep⟩
  case lsrZp | lsrZpx | lsrAbs | lsrAbx => exact ⟨_, _, rfl, modifiesAs_lsrStep⟩
  case rolZp | rolZpx | rolAbs | rolAbx => exact ⟨_, _, rfl, modifiesAs_rolStep⟩
  case rorZp | rorZpx | rorAbs | rorAbx => exact ⟨_, _, rfl, modifiesAs_rorStep⟩
  case sloZp | sloZpx | sloAbs | sloAbx | sloAby | sloIdx | sloIdy => exact ⟨_, _, rfl, modifiesAs_sloStep⟩
  case rlaZp | rlaZpx | rlaAbs | rlaAbx | rlaAby | rlaIdx | rlaIdy => exact ⟨_, _, rfl, modifiesAs_rlaStep⟩
  case sreZp | sreZpx | sreAbs | sreAbx | sreAby | sreIdx | sreIdy => exact ⟨_, _, rfl, modifiesAs_sreStep⟩
  case rraZp | rraZpx | rraAbs | rraAbx | rraAby | rraIdx | rraIdy => exact ⟨_, _, rfl, modifiesAs_rraStep⟩
  case dcpZp | dcpZpx | dcpAbs | dcpAbx | dcpAby | dcpIdx | dcpIdy => exact ⟨_, _, rfl, modifiesAs_dcpStep⟩
  case isbZp | isbZpx | isbAbs | isbAbx | isbAby | isbIdx | isbIdy => exact ⟨_, _, rfl, modifiesAs_isbStep⟩

/-! ### The microprogram of a read-modify-write instruction goes sub-cycle by sub-cycle -/

theorem steady_indexTick {k : Access} (hk : k ≠ .read) (index : State → Byte) : Steady (indexTick index k) := by
  constructor <;> intro c s <;> rw [indexTick, if_neg fun h => hk h.1]

theorem steady_addressing {k : Access} (hk : k ≠ .read) (m : Mode) : ∀ act ∈ addressing m k, Steady act := by
  have hx := steady_indexTick hk State.x
  have hy := steady_indexTick hk State.y
  cases m <;> simp only [addressing, List.forall_mem_cons, List.not_mem_nil, false_implies, implies_true, and_true, hx, hy, true_and] <;>
    (repeat' apply And.intro) <;> exact {}

section
variable {f : Byte → State → Byte × State} {effect : Byte → Arch → Byte × Arch}

theorem ModifiesAs.mem_eq (hf : ModifiesAs f effect) (v : Byte) (s : State) : (f v s).2.mem = s.mem := by
  have harch : (f v s).2.mem = (effect v s.arch).2.mem := congrArg Arch.mem (hf.arch v s)
  exact harch.trans (congrArg (·.2.mem) (hf.mem v s.arch s.mem))

/-- The tick that computes the new value and writes it. -/
def writeBackTick (f : Byte → State → Byte × State) : Action := fun _ s => (f (lo s.ad) s).2.drive (f (lo s.ad) s).1

/-- The tick that writes back the byte just read. -/
def dummyWriteTick : Action := fun c s => { s with ad := zext16 c.dbus, rw := true }

theorem modifyTicks_eq (m : Mode) (f : Byte → State → Byte × State) :
    modifyTicks m f = addressing m .readWrite ++ [dummyWriteTick, writeBackTick f, fetchTick] := rfl

theorem blind_modifyTicks (hf : ModifiesAs f effect) (m : Mode) : ∀ act ∈ modifyTicks m f, EnvBlind act := by
  rw [modifyTicks_eq]
  refine List.forall_mem_append.mpr ⟨blind_addressing m .readWrite, ?_⟩
  simp only [List.forall_mem_cons, List.not_mem_nil, false_implies, implies_true, and_true]
  refine ⟨fun _ _ n _ => ⟨n, rfl⟩, fun c s n ls => ?_, blind_fetchTick⟩
  obtain ⟨hvalue, m, hstate⟩ := hf.blind (lo s.ad) s n ls
  refine ⟨m, ?_⟩
  show (f (lo s.ad) (s.withEnv n ls)).2.drive (f (lo s.ad) (s.withEnv n ls)).1 = _
  rw [hvalue, hstate]
  rfl

theorem linear_of_modifies {i : Instr} {m : Mode} (hp : microprogram i = modifyTicks m f) (hf : ModifiesAs f effect) : Linear i := by
  have hlen := length_addressing_le m .readWrite
  have hpre : ∀ act ∈ addressing m .readWrite ++ [dummyWriteTick, writeBackTick f], Steady act := by
    refine List.forall_mem_append.mpr ⟨steady_addressing (by decide) m, ?_⟩
    simp only [List.forall_mem_cons, List.not_mem_nil, false_implies, implies_true, and_true]
    exact ⟨{}, fun _ _ => hf.sync _ _, fun _ _ => hf.ir _ _, fun _ _ => hf.brk _ _⟩
  have hsplit : modifyTicks m f = (addressing m .readWrite ++ [dummyWriteTick, writeBackTick f]) ++ [fetchTick] := by
    rw [modifyTicks_eq, List.append_assoc]
    rfl
  refine ⟨hp ▸ blind_modifyTicks hf m, fun k act hk hlt => ?_, by
    rw [hp, modifyTicks_eq, List.length_append]
    exact Nat.add_le_add_right hlen 3⟩
  rw [hp, hsplit] at hk hlt
  rw [List.getElem?_append_left (by simpa using hlt)] at hk
  exact hpre act (List.mem_of_getElem? hk)

end

/-! ### Quiet runs in parts -/

theorem quietTicks_add {ticks : List Action} {operand : List (Option Byte)} (m n : Nat) (s : State) :
    quietTicks ticks operand (m + n) s = quietTicks ticks operand n (quietTicks ticks operand m s) := by
  induction m generalizing s with
  | zero => rw [Nat.zero_add]; rfl
  | succ m ih =>
    by_cases hs : s.sync = true
    · rw [quietTicks_done hs, quietTicks_done hs, quietTicks_done hs]
    · rw [Nat.add_right_comm, quietTicks, if_neg hs, ih, quietTicks, if_neg hs]

/-- A quiet run within the first ticks of a microprogram is that of those ticks alone. -/
theorem quietTicks_append_left {l rest : List Action} {operand : List (Option Byte)} {code : Byte} (hst : ∀ act ∈ l, Steady act)
    (hl : l.length ≤ 8) {n k : Nat} {s : State} (hs : s.sync = false) (hi : s.ir = irAt code k) (hn : k + n ≤ l.length) :
    quietTicks (l ++ rest) operand n s = quietTicks l operand n s := by
  induction n generalizing k s with
  | zero => rfl
  | succ n ih =>
    have hk : l[k]? = some l[k] := List.getElem?_eq_getElem (by omega)
    have hact : (l ++ rest)[k]? = some l[k] := by rw [List.getElem?_append_left (by omega), hk]
    have hstep := hst l[k] (List.getElem_mem _)
    rw [quietTicks_step hs hi (by omega) hact, quietTicks_step hs hi (by omega) hk]
    exact ih ((hstep.sync _ _).trans hs) (hstep.ir _ _) (by omega)

/-- What the addressing ticks come to stands after as many ticks of the instruction. -/
theorem quietTicks_addressed {i : Instr} {m : Mode} {k : Access} (hk : k ≠ .read) {rest : List Action} {len ea base : Word} {s : State}
    (hp : microprogram i = addressing m k ++ rest) (hb : s.AtBoundary) (hpos : addressing m k ≠ [])
    (hr : Addresses m k i (operandReads i) len ea base s) :
    ∃ d, quietTicks (microprogram i) (operandReads i) ((addressing m k).length - 1) (quietStart i s) =
      s.during i.opcode (addressing m k).length (s.pc + len) base ea d := by
  obtain ⟨d, hd⟩ := hr (fun _ s => s) []
  rw [appendLast_id, List.append_nil] at hd
  have hst := steady_addressing hk m
  have hle := length_addressing_le m k
  generalize addressing m k = l at *
  obtain ⟨t, ts, rfl⟩ := List.exists_cons_of_ne_nil hpos
  rw [quietInstr_start hb.2.1] at hd
  refine ⟨d, ?_⟩
  rw [quietStart_eq hp hb.2.1, hp]
  have ht := hst t (by simp)
  rw [quietTicks_append_left hst (by omega) (k := 1) (code := i.opcode) (ht.sync _ _) (ht.ir _ _) (by rw [List.length_cons]; omega)]
  exact hd

/-! ### The operand bytes stand where the ticks read them -/

section
variable {i : Instr} {s : State}

/-- The operand byte of sub-cycle `k + 1` is the byte of memory so far past the opcode. -/
theorem State.Starts.operand_eq (hs : s.Starts i) {k : Nat} {v : Byte} (hv : (operandReads i)[k + 1]?.getD none = some v) :
    [s.readByte (s.pc + 1), s.readByte (s.pc + 2)][k]? = some v := by
  rw [operandReads, List.getElem?_cons_succ, List.getElem?_map] at hv
  cases hk : i.operandBytes[k]? with
  | none => simp [hk] at hv
  | some w =>
    obtain rfl : w = v := by simpa [hk] using hv
    obtain ⟨hlt, -⟩ := List.getElem?_eq_some_iff.mp hk
    obtain ⟨rest, hrest⟩ := hs.operandBytes
    rw [← hrest, List.getElem?_append_left hlt, hk]

theorem Linear.supplied_one (hl : Linear i) (hs : s.Starts i) {ts : List Action} (hp : microprogram i = operandTick :: ts) :
    Supplied i s 1 := by
  intro v hv
  obtain rfl : s.readByte (s.pc + 1) = v := by simpa using hs.operand_eq hv
  obtain ⟨n, ls, he⟩ := hl.ticks_quiet hs (j := 0) (by simp [hp]) (by omega)
  rw [he, quietStart_eq hp hs.boundary.2.1, operandTick_during]
  rfl

theorem Linear.supplied_two (hl : Linear i) (hs : s.Starts i) {ts : List Action}
    (hp : microprogram i = operandTick :: secondOperandTick :: ts) : Supplied i s 2 := by
  intro v hv
  obtain rfl : s.readByte (s.pc + 2) = v := by simpa using hs.operand_eq hv
  obtain ⟨n, ls, he⟩ := hl.ticks_quiet hs (j := 1) (by simp [hp]) fun k hpos hk =>
    (show k = 1 by omega) ▸ hl.supplied_one hs hp
  rw [he, quietStart_eq hp hs.boundary.2.1, operandTick_during, quietTicks_during (by decide) (by rw [hp]; rfl),
    secondOperandTick_during, pc_two s.pc]
  rfl

theorem supplied_of_length_le {k : Nat} (h : (operandReads i).length ≤ k) : Supplied i s k := by
  intro v hv
  rw [List.getElem?_eq_none h] at hv
  cases hv

theorem Linear.supplied_byte (hl : Linear i) (hs : s.Starts i) (ho : (operandReads i).length ≤ 2) {ts : List Action}
    (hp : microprogram i = operandTick :: ts) : ∀ k, 0 < k → Supplied i s k
  | 1, _ => hl.supplied_one hs hp
  | _ + 2, _ => supplied_of_length_le (by omega)

theorem Linear.supplied_word (hl : Linear i) (hs : s.Starts i) (ho : (operandReads i).length ≤ 3) {ts : List Action}
    (hp : microprogram i = operandTick :: secondOperandTick :: ts) : ∀ k, 0 < k → Supplied i s k
  | 1, _ => hl.supplied_one hs hp
  | 2, _ => hl.supplied_two hs hp
  | _ + 3, _ => supplied_of_length_le (by omega)

/-- A read-modify-write instruction reads one operand byte and then others, or two and then others. -/
theorem addressing_readWrite (ha : accessOf i = .readWrite) : ∃ t ts,
    (addressing (modeOf i) .readWrite = operandTick :: t :: ts ∧ (operandReads i).length ≤ 2) ∨
      (addressing (modeOf i) .readWrite = operandTick :: secondOperandTick :: t :: ts ∧ (operandReads i).length ≤ 3) := by
  have hop := operandReads_eq (operates_of_readWrite ha)
  have hmode := modeOf_readWrite ha
  simp only [List.mem_cons, List.not_mem_nil, or_false] at hmode
  rcases hmode with hm | hm | hm | hm | hm | hm | hm <;> rw [hop, hm]
  · exact ⟨_, _, .inl ⟨rfl, by simp⟩⟩
  · exact ⟨_, _, .inl ⟨rfl, by simp⟩⟩
  · exact ⟨_, _, .inr ⟨rfl, by simp⟩⟩
  · exact ⟨_, _, .inr ⟨rfl, by simp⟩⟩
  · exact ⟨_, _, .inr ⟨rfl, by simp⟩⟩
  · exact ⟨_, _, .inl ⟨rfl, by simp⟩⟩
  · exact ⟨_, _, .inl ⟨rfl, by simp⟩⟩

theorem supplied_readWrite (ha : accessOf i = .readWrite) (hs : s.Starts i) : ∀ k, 0 < k → Supplied i s k := by
  obtain ⟨f, effect, hp, hf⟩ := microprogram_modifies ha
  have hl := linear_of_modifies hp hf
  rw [modifyTicks_eq] at hp
  obtain ⟨t, ts, ⟨he, ho⟩ | ⟨he, ho⟩⟩ := addressing_readWrite ha
  · exact hl.supplied_byte hs ho (by rw [hp, he]; rfl)
  · exact hl.supplied_word hs ho (by rw [hp, he]; rfl)

/-- A read-modify-write instruction has addressing ticks, and reads no operand byte after them. -/
theorem length_addressing_readWrite (ha : accessOf i = .readWrite) :
    ∃ n, (addressing (modeOf i) .readWrite).length = n + 1 ∧ (operandReads i).length ≤ n + 1 := by
  obtain ⟨t, ts, ⟨he, ho⟩ | ⟨he, ho⟩⟩ := addressing_readWrite ha <;> rw [he]
  · exact ⟨_, rfl, ho.trans (by simp)⟩
  · exact ⟨_, rfl, ho.trans (by simp)⟩

end

/-! ### The last ticks of a read-modify-write instruction -/

/-- The state with a byte stored. -/
def State.stored (s : State) (k : Word) (v : Byte) : State := { s with mem := s.mem.write k.toNat v }

/-- The state after the tick that computes the new value of a byte and writes it. -/
def State.modified (s : State) (f : Byte → State → Byte × State) (v : Byte) : State := ((f v s).2.drive (f v s).1).commit

section
variable {ticks : List Action} {operand : List (Option Byte)} {code : Byte} {k : Nat} {f : Byte → State → Byte × State}
  {effect : Byte → Arch → Byte × Arch}

theorem ModifiesAs.modified_readByte (hf : ModifiesAs f effect) {s : State} (hw : s.mem.wf) (v : Byte) :
    (s.modified f v).readByte s.addr = (s.modified f v).dout := by
  have hmem : (s.modified f v).mem = s.mem.write s.addr.toNat (f v s).1 := by
    show (f v s).2.mem.write (f v s).2.addr.toNat (f v s).1 = _
    rw [hf.mem_eq, hf.addr]
  rw [State.readByte, hmem]
  exact Memory.read_write_same hw _ _

theorem quietTicks_dummyWrite (hk : k < 8) (ha : ticks[k]? = some dummyWriteTick) (hd : operand[k]?.getD none = none) (s : State)
    (pc ad addr : Word) (d : Byte) : quietTicks ticks operand 1 (s.during code k pc ad addr d) =
      (s.stored addr (s.readByte addr)).afterWrite code (k + 1) pc (zext16 (s.readByte addr)) addr (s.readByte addr) := by
  rw [quietTicks_during (n := 0) hk ha, hd]
  rfl

theorem quietTicks_writeBack (hk : k < 8) (ha : ticks[k]? = some (writeBackTick f)) (s : State) (pc addr : Word) (v : Byte) :
    quietTicks ticks operand 1 (s.afterWrite code k pc (zext16 v) addr v) =
      (s.during code (k + 1) pc (zext16 v) addr v).modified f v := by
  rw [quietTicks_afterWrite (n := 0) hk ha]
  show (s.during code (k + 1) pc (zext16 v) addr v).modified f (lo (zext16 v)) = _
  rw [lo_zext16]

theorem ModifiesAs.quietTicks_fetch (hf : ModifiesAs f effect) (hk : k < 8) (ha : ticks[k]? = some fetchTick) {s : State}
    (hs : s.sync = false) (hi : s.ir = irAt code k) (v : Byte) :
    quietTicks ticks operand 1 (s.modified f v) = quietStep fetchTick code k (operand[k]?.getD none) (s.modified f v) :=
  quietTicks_step (n := 0) ((hf.sync v s).trans hs) ((hf.ir v s).trans hi) hk ha

end

/-- From the tick that sets up the read of its operand on: the byte read is written back, the new one is written, the next opcode is
fetched. -/
theorem quietTicks_modify {f : Byte → State → Byte × State} {effect : Byte → Arch → Byte × Arch} (hf : ModifiesAs f effect)
    {m : Mode} {operand : List (Option Byte)} {k : Nat} (hk : (addressing m .readWrite).length = k) (ho : operand.length ≤ k) {s : State}
    (hw : s.mem.wf) (code : Byte) (pc base ea : Word) (d : Byte) :
    let q := fun j => quietTicks (modifyTicks m f) operand j (s.during code k pc base ea d)
    ((q 1).addr = ea ∧ (q 1).rw = true ∧ (q 1).dout = s.readByte ea) ∧
      ((q 2).addr = ea ∧ (q 2).rw = true ∧ (q 2).dout = (q 3).readByte ea) ∧ (q 3).sync = true ∧ (q 3).rw = false := by
  intro q
  have hlen := length_addressing_le m .readWrite
  have hat : ∀ j, (modifyTicks m f)[k + j]? = [dummyWriteTick, writeBackTick f, fetchTick][j]? := fun j => by
    rw [modifyTicks_eq, List.getElem?_append_right (by omega), hk, Nat.add_sub_cancel_left]
  have hadd : ∀ j, q (j + 1) = quietTicks (modifyTicks m f) operand 1 (q j) := fun j => quietTicks_add j 1 _
  let u := (s.stored ea (s.readByte ea)).during code (k + 2) pc (zext16 (s.readByte ea)) ea (s.readByte ea)
  have h1 : q 1 = _ := quietTicks_dummyWrite (by omega) (hat 0) (by rw [Nat.add_zero, List.getElem?_eq_none ho]; rfl) s pc base ea d
  have h2 : q 2 = u.modified f (s.readByte ea) := by
    rw [hadd, h1]
    exact quietTicks_writeBack (by omega) (hat 1) _ _ _ _
  have h3 : q 3 = quietStep fetchTick code (k + 2) (operand[k + 2]?.getD none) (u.modified f (s.readByte ea)) := by
    rw [hadd, h2]
    exact hf.quietTicks_fetch (by omega) (hat 2) rfl rfl _
  rw [h1, h2, h3]
  exact ⟨⟨rfl, rfl, rfl⟩, ⟨hf.addr _ _, rfl, (hf.modified_readByte (s := u) (Memory.wf_write_word hw _ _) _).symm⟩, rfl, rfl⟩

/-- Settles O57: the addressing ticks set up the read of the effective address, and the three ticks after them are those of
`quietTicks_modify`. -/
theorem modifyBusCycles : Obligations.ModifyBusCycles := by
  intro s hb hw hu hr ha
  generalize hi : fetched s = i at ha ⊢
  have hs : s.Starts i := ⟨hb, hu, hr, hi⟩
  obtain ⟨f, effect, hp, hf⟩ := microprogram_modifies ha
  have hl := linear_of_modifies hp hf
  have hsup := supplied_readWrite ha hs
  obtain ⟨len, base, haddr⟩ := addresses_readWrite ha hb
  obtain ⟨n, hn, ho⟩ := length_addressing_readWrite ha
  obtain ⟨d, hd⟩ := quietTicks_addressed (by decide) hp hb (List.ne_nil_of_length_eq_add_one hn) haddr
  rw [hn, Nat.add_sub_cancel] at hd
  have hsize : (microprogram i).length = n + 4 := by rw [hp, modifyTicks_eq, List.length_append, hn]; rfl
  have hticks : ∀ j < 4, ∃ m ls, ticks (n + j + 1) s = (quietTicks (modifyTicks (modeOf i) f) (operandReads i) j
      (s.during i.opcode (n + 1) (s.pc + len) base (effectiveAddress i s) d)).withEnv m ls := fun j hj => by
    obtain ⟨m, ls, he⟩ := hl.ticks_quiet hs (j := n + j) (by omega) fun k hk _ => hsup k hk
    exact ⟨m, ls, by rw [he, quietTicks_add, hd, hp]⟩
  obtain ⟨m0, l0, h0⟩ := hticks 0 (by decide)
  obtain ⟨m1, l1, h1⟩ := hticks 1 (by decide)
  obtain ⟨m2, l2, h2⟩ := hticks 2 (by decide)
  obtain ⟨m3, l3, h3⟩ := hticks 3 (by decide)
  have hstep := hl.step_eq_ticks hs (exec_eq_runInstr (operates_of_readWrite ha) s) (by omega) hsup
  refine ⟨n, hsize ▸ hstep, ?_⟩
  rw [h0, h1, h2, h3]
  exact ⟨⟨rfl, rfl⟩, quietTicks_modify hf hn ho hw _ _ _ _ _⟩

end Sys2Proof.Machine
end

section
/-!
The encoding: O1 to O5. An opcode's form makes instructions of operand bytes; the decoder and the encoder are both told through that.
-/
namespace Sys2Proof
open Machine

/-! ### Operand bytes -/

/-- A branch offset that fits is the signed value of its byte (30_encoding.md R83). -/
theorem toInt_offsetByte {o : Int} (h : offsetFits o = true) : (offsetByte o).toInt = o := by
  simp only [offsetFits, Bool.and_eq_true, decide_eq_true_eq] at h
  rw [offsetByte, BitVec.toInt_ofInt, Int.bmod_eq_of_le] <;> omega

@[simp] theorem offsetByte_toInt (b : Byte) : offsetByte b.toInt = b := BitVec.ofInt_toInt

theorem offsetFits_toInt (b : Byte) : offsetFits b.toInt = true := by
  have hle := BitVec.le_two_mul_toInt (x := b)
  have hlt := BitVec.two_mul_toInt_lt (x := b)
  simp only [offsetFits, Bool.and_eq_true, decide_eq_true_eq]
  omega

/-! ### The instructions of a form -/

/-- The instructions a form makes, and the operand bytes of each (30_encoding.md R70, R71, R83). -/
inductive Form.Makes : Form → List Byte → Instr → Prop
  | implied (i : Instr) : Makes (.implied i) [] i
  | byte (make : Byte → Instr) (n : Byte) : Makes (.byte make) [n] (make n)
  | offset (make : Int → Instr) (o : Int) : offsetFits o = true → Makes (.offset make) [offsetByte o] (make o)
  | word (make : Word → Instr) (a : Word) : Makes (.word make) (wordBytes a) (make a)

theorem Form.Makes.length_eq {f : Form} {operand : List Byte} {i : Instr} (h : f.Makes operand i) : operand.length + 1 = f.length := by
  cases h <;> rfl

/-- What a form makes of operand bytes is what it reads from them. -/
theorem Form.Makes.instr_eq {f : Form} {operand : List Byte} {i : Instr} (h : f.Makes operand i) :
    ∃ b1 b2, operand <+: [b1, b2] ∧ f.instr b1 b2 = i := by
  cases h with
  | implied => exact ⟨0, 0, List.nil_prefix, rfl⟩
  | byte make n => exact ⟨n, 0, ⟨[0], rfl⟩, rfl⟩
  | offset make o ho => exact ⟨offsetByte o, 0, ⟨[0], rfl⟩, congrArg make (toInt_offsetByte ho)⟩
  | word make a => exact ⟨lo a, hi a, List.prefix_rfl, congrArg make (mkWord_hi_lo a)⟩

/-- The form of a well-formed instruction's opcode makes it of its operand bytes (R77, R85). -/
theorem formOf_opcode_makes {i : Instr} (hw : wellFormed i = true) : (formOf i.opcode).Makes i.operandBytes i := by
  cases i <;> dsimp only [Instr.opcode, Instr.operandBytes] <;> constructor <;> exact hw

/-- Only a branch could be ill-formed, and its offset is read from a byte. -/
theorem wellFormed_decodeInstr (op b1 b2 : Byte) : wellFormed (decodeInstr op b1 b2) = true := by
  have branch := offsetFits_toInt b1
  have other : true = true := rfl
  obtain ⟨n, hn, rfl⟩ : ∃ n < 256, op = BitVec.ofNat 8 n := ⟨op.toNat, op.isLt, by simp⟩
  interval_cases n <;> assumption

/-- What the form of an opcode makes of operand bytes is the well-formed instruction that they encode. -/
theorem Form.Makes.encode_eq {op : Byte} {operand : List Byte} {i : Instr} (h : (formOf op).Makes operand i) :
    wellFormed i = true ∧ encode i = op :: operand := by
  obtain ⟨b1, b2, hpre, hi⟩ := h.instr_eq
  obtain rfl : decodeInstr op b1 b2 = i := hi
  have hw := wellFormed_decodeInstr op b1 b2
  have hlen := (formOf_opcode_makes hw).length_eq
  rw [decodeInstr_opcode, ← h.length_eq] at hlen
  have hoperand := (List.prefix_of_prefix_length_le (decodeInstr_operandBytes op b1 b2) hpre (by omega)).eq_of_length (by omega)
  exact ⟨hw, by rw [encode, decodeInstr_opcode, hoperand]⟩

/-! ### The decoder -/

/-- The decoder reads an instruction from its opcode and its operand bytes. -/
theorem decode_of_makes {op : Byte} {operand : List Byte} {i : Instr} (h : (formOf op).Makes operand i) (rest : List Byte) :
    decode (op :: operand ++ rest) = .ok i rest := by
  generalize hf : formOf op = f at h
  cases h with
  | implied | byte => simp [decode, hf]
  | offset make o ho => simp [decode, hf, toInt_offsetByte ho]
  | word make a => simp [decode, hf, wordBytes, mkWord_hi_lo]

/-- The bytes an instruction is read from are an opcode, operand bytes of which its form makes the instruction, and the rest. -/
theorem makes_of_decode {bytes : List Byte} {i : Instr} {rest : List Byte} (h : decode bytes = .ok i rest) :
    ∃ op operand, bytes = op :: operand ++ rest ∧ (formOf op).Makes operand i := by
  match bytes with
  | [] => cases h
  | op :: tail =>
    refine ⟨op, ?_⟩
    match hf : formOf op, tail with
    | .implied j, _ =>
      obtain ⟨rfl, rfl⟩ : j = i ∧ _ = rest := by simpa [decode, hf] using h
      exact ⟨[], rfl, .implied j⟩
    | .byte make, b :: _ =>
      obtain ⟨rfl, rfl⟩ : make b = i ∧ _ = rest := by simpa [decode, hf] using h
      exact ⟨[b], rfl, .byte make b⟩
    | .offset make, b :: _ =>
      obtain ⟨rfl, rfl⟩ : make b.toInt = i ∧ _ = rest := by simpa [decode, hf] using h
      exact ⟨_, by simp, .offset make b.toInt (offsetFits_toInt b)⟩
    | .word make, b1 :: b2 :: _ =>
      obtain ⟨rfl, rfl⟩ : make (mkWord b2 b1) = i ∧ _ = rest := by simpa [decode, hf] using h
      exact ⟨_, by simp [wordBytes], .word make (mkWord b2 b1)⟩
    | .byte _, [] | .offset _, [] | .word _, [] | .word _, [_] => simp [decode, hf] at h

/-- Settles O1: the form of the opcode makes the instruction of its operand bytes, and the decoder reads what the form makes. -/
theorem decodeOfEncode : Obligations.DecodeOfEncode :=
  fun _ rest hw => decode_of_makes (formOf_opcode_makes hw) rest

/-- Settles O2: what is read from bytes is made by the form of their opcode, which makes an instruction of no bytes but its own. -/
theorem encodeOfDecode : Obligations.EncodeOfDecode := by
  intro bytes i rest h
  obtain ⟨op, operand, rfl, hm⟩ := makes_of_decode h
  obtain ⟨hw, he⟩ := hm.encode_eq
  exact ⟨hw, by rw [he]⟩

/-! ### Every opcode -/

/-- Three bytes are enough for every form. -/
theorem decode_three (op b1 b2 : Byte) : ∃ rest, decode [op, b1, b2] = .ok (decodeInstr op b1 b2) rest := by
  obtain ⟨rest, hrest⟩ := decodeInstr_operandBytes op b1 b2
  have hm := formOf_opcode_makes (wellFormed_decodeInstr op b1 b2)
  rw [decodeInstr_opcode] at hm
  exact ⟨rest, hrest ▸ decode_of_makes hm rest⟩

theorem isJam_decodeInstr (op b1 b2 : Byte) : isJam (decodeInstr op b1 b2) = jamCodes.contains op := by
  obtain ⟨n, hn, rfl⟩ : ∃ n < 256, op = BitVec.ofNat 8 n := ⟨op.toNat, op.isLt, by simp⟩
  interval_cases n <;> rfl

/-- Settles O3: the instruction is `decodeInstr`'s, whose opcode and mode are those of the first byte. -/
theorem everyOpcodeDecodes : Obligations.EveryOpcodeDecodes := by
  intro op b1 b2
  obtain ⟨rest, h⟩ := decode_three op b1 b2
  refine ⟨_, rest, h, decodeInstr_opcode op b1 b2, ?_⟩
  rw [isJam_decodeInstr]
  exact List.contains_iff_mem

/-- Settles O4, by running the decoder on the nine words. -/
theorem sanityDecodedWords : Obligations.SanityDecodedWords :=
  ⟨rfl, rfl, rfl, rfl, rfl, rfl, rfl, rfl, rfl⟩

/-- Settles O5: each instruction has the operand bytes of its mode. -/
theorem instructionLengths : Obligations.InstructionLengths := by
  intro i
  cases i <;> rfl

end Sys2Proof
end

section
/-!
Instructions that store nothing: O52. No action of theirs sets up a write cycle.
-/
namespace Sys2Proof.Machine

/-! ### Actions that set up no write -/

/-- The action sets up no write cycle, and stores nothing itself. -/
structure OnlyReads (act : Action) : Prop where
  rw : ∀ c s, (act c s).rw = s.rw := by exact fun _ _ => rfl
  mem : Part.mem.Keeps act := by exact fun _ _ => rfl

theorem OnlyReads.fetched {op : Action} (h : OnlyReads op) : OnlyReads fun c s => (op c s).fetch := ⟨h.rw, h.mem⟩

theorem onlyReads_indexTick (index : State → Byte) (k : Access) : OnlyReads (indexTick index k) := by
  refine ⟨fun c s => ?_, keeps_indexTick .mem index k⟩
  simp only [indexTick]
  split <;> rfl

/-- The addressing ticks of every mode only read (40_execution.md R110-R121). -/
theorem onlyReads_addressing (m : Mode) (k : Access) : ∀ act ∈ addressing m k, OnlyReads act := by
  have hx := onlyReads_indexTick State.x k
  have hy := onlyReads_indexTick State.y k
  cases m <;> simp only [addressing, List.forall_mem_cons, List.not_mem_nil, false_implies, implies_true, and_true, hx, hy,
    true_and] <;> (repeat' apply And.intro) <;> exact {}

theorem onlyReads_readTicks {op : Action} (h : OnlyReads op) (m : Mode) : ∀ act ∈ readTicks m op, OnlyReads act :=
  List.forall_mem_append.mpr ⟨onlyReads_addressing m .read, List.forall_mem_singleton.mpr h.fetched⟩

theorem onlyReads_impliedTicks {op : State → State} (h : OnlyReads fun _ => op) : ∀ act ∈ impliedTicks op, OnlyReads act :=
  List.forall_mem_append.mpr ⟨onlyReads_addressing .none .none, List.forall_mem_singleton.mpr h.fetched⟩

theorem onlyReads_pullTicks {op : Action} (h : OnlyReads op) : ∀ act ∈ pullTicks op, OnlyReads act := by
  refine List.forall_mem_append.mpr ⟨onlyReads_addressing .none .none, ?_⟩
  simp only [List.forall_mem_cons, List.not_mem_nil, false_implies, implies_true, and_true]
  exact ⟨{}, {}, h.fetched⟩

theorem onlyReads_ticksJmpAbs : ∀ act ∈ ticksJmpAbs, OnlyReads act :=
  List.forall_mem_append.mpr ⟨onlyReads_addressing .jmp .read, List.forall_mem_singleton.mpr {}⟩

theorem onlyReads_ticksJmpInd : ∀ act ∈ ticksJmpInd, OnlyReads act := by
  refine List.forall_mem_append.mpr ⟨onlyReads_addressing .jmp .read, ?_⟩
  simp only [List.forall_mem_cons, List.not_mem_nil, false_implies, implies_true, and_true]
  exact ⟨{}, {}, {}⟩

theorem onlyReads_ticksRts : ∀ act ∈ ticksRts, OnlyReads act := by
  refine List.forall_mem_append.mpr ⟨onlyReads_addressing .none .none, ?_⟩
  simp only [List.forall_mem_cons, List.not_mem_nil, false_implies, implies_true, and_true]
  exact ⟨{}, {}, {}, {}, {}⟩

theorem onlyReads_returnTicks : ∀ act ∈ returnTicks, OnlyReads act := by
  simp only [returnTicks, List.forall_mem_cons, List.not_mem_nil, false_implies, implies_true, and_true]
  exact ⟨{}, {}, {}, {}, {}, {}⟩

theorem onlyReads_branchTicks (cond : State → Bool) : ∀ act ∈ branchTicks cond, OnlyReads act := by
  have hmem := keeps_branchTicks .mem cond
  simp only [branchTicks, List.forall_mem_cons, List.not_mem_nil, false_implies, implies_true, and_true] at hmem ⊢
  obtain ⟨-, hm1, hm2, -⟩ := hmem
  refine ⟨{}, ⟨fun c s => ?_, hm1⟩, ⟨fun c s => ?_, hm2⟩, {}⟩
  · split <;> rfl
  · split <;> rfl

theorem onlyReads_jamTicks : ∀ act ∈ jamTicks, OnlyReads act := by
  have hmem := keeps_jamTicks .mem
  simp only [jamTicks, List.forall_mem_cons, List.not_mem_nil, false_implies, implies_true, and_true] at hmem ⊢
  refine ⟨{}, fun c s => ?_, hmem.2⟩
  simp only [jamTick]
  split <;> rfl

theorem onlyReads_of_not_operates {i : Instr} (ho : operatesOnOperand i = false) (hj : isJam i = false)
    (ha : accessOf i = .none ∨ accessOf i = .read) (hbrk : i.opcode ≠ 0x00) (hjsr : i.opcode ≠ 0x20) :
    ∀ act ∈ microprogram i, OnlyReads act := by
  cases i <;> cases ho <;> cases hj <;> dsimp only [microprogram]
  case brk => exact absurd rfl hbrk
  case jsr => exact absurd rfl hjsr
  case pha | php => simp [accessOf] at ha
  case bpl | bmi | bvc | bvs | bcc | bcs | bne | beq => exact onlyReads_branchTicks _
  case rti => exact onlyReads_returnTicks
  case rts => exact onlyReads_ticksRts
  case jmpAbs => exact onlyReads_ticksJmpAbs
  case jmpInd => exact onlyReads_ticksJmpInd
  case pla | plp => exact onlyReads_pullTicks {}
  all_goals exact onlyReads_impliedTicks {}

/-- The microprogram of an instruction that stores nothing, by its operation on an operand where it has one. -/
theorem onlyReads_microprogram {i : Instr} (hj : isJam i = false) (ha : accessOf i = .none ∨ accessOf i = .read)
    (hbrk : i.opcode ≠ 0x00) (hjsr : i.opcode ≠ 0x20) : ∀ act ∈ microprogram i, OnlyReads act := by
  cases ho : operatesOnOperand i with
  | true =>
    obtain ⟨op, he, h, hrw⟩ := microprogram_of_read ho (ha.resolve_left (accessOf_ne_none ho))
    rw [he]
    exact onlyReads_readTicks ⟨hrw, h.mem⟩ _
  | false => exact onlyReads_of_not_operates ho hj ha hbrk hjsr

/-! ### Runs that set up no write -/

section
variable {ticks : List Action} (h : ∀ act ∈ ticks, OnlyReads act)
include h

/-- A sub-cycle is a read cycle where its action sets up no write. -/
theorem microStep_rw (c : Seen) (s : State) : (microStep ticks c s).rw = false := by
  simp only [microStep]
  split
  · next act hk => exact (h act (List.mem_of_getElem? hk)).rw c _
  · rfl

theorem microStep_mem (c : Seen) (s : State) : (microStep ticks c s).mem = s.mem :=
  microStep_keeps (q := .mem) (fun act ha => (h act ha).mem) c s

end

theorem afterTick_mem {t : State} (h : t.rw = false) : t.afterTick.mem = t.mem := by
  simp [State.afterTick, State.commit, State.withEnv, h]

section
variable {act : Action} (hr : ∀ c s, (act c s).rw = false) (hm : ∀ c s, (act c s).mem = s.mem)
include hr hm

theorem cycle_mem (data : Option Byte) (s : State) : (cycle act data s).mem = s.mem := by
  obtain ⟨n, ks, d, c, he⟩ := cycle_eq act data s
  rw [he, afterTick_mem (hr _ _), hm]
  rfl

theorem jamCycle_mem (s : State) : (cycleWith State.jamStallTick act none s).mem = s.mem := by
  obtain ⟨n, ks, j, d, c, he⟩ := jamCycle_eq act s
  rw [he, afterTick_mem (hr _ _), hm]
  rfl

end

/-- The tick of a boundary and T0 of a microprogram that only reads. -/
theorem cycle_enter_mem {ticks : List Action} (h : ∀ act ∈ ticks, OnlyReads act) (code : Byte) (data : Option Byte) (s : State) :
    (cycle (fun c s => microStep ticks c (s.enterOpcode code)) data s).mem = s.mem :=
  cycle_mem (act := fun c s => microStep ticks c (s.enterOpcode code)) (fun c _ => microStep_rw h c _) (fun c _ => microStep_mem h c _)
    data s

theorem runFrom_mem {ticks : List Action} (h : ∀ act ∈ ticks, OnlyReads act) (code : Byte) (opcode : Option Byte)
    (operand : List (Option Byte)) (s : State) : (runFrom (fun s => s.enterOpcode code) opcode ticks operand s).mem = s.mem :=
  runTicks_invariant (inv := fun t => t.mem = s.mem)
    (fun data u hu => (cycle_mem (microStep_rw h) (microStep_mem h) data u).trans hu) _ _ (cycle_enter_mem h code opcode s)

/-- An instruction that only reads leaves memory as it was, from every state. -/
theorem exec_mem {i : Instr} (ha : accessOf i = .none ∨ accessOf i = .read) (hbrk : i.opcode ≠ 0x00) (hjsr : i.opcode ≠ 0x20)
    {s t : State} (hx : exec i s = .next t) : t.mem = s.mem := by
  cases hj : isJam i with
  | false =>
    obtain ⟨operand, he⟩ := exec_eq_runFrom hj s
    obtain rfl := Host.Outcome.next.inj (he.symm.trans hx)
    exact runFrom_mem (onlyReads_microprogram hj ha hbrk hjsr) _ _ _ _
  | true =>
    obtain rfl := Host.Outcome.next.inj ((exec_eq_runJam hj s).symm.trans hx)
    exact (jamCycle_mem (microStep_rw onlyReads_jamTicks) (microStep_mem onlyReads_jamTicks) _).trans
      (cycle_enter_mem onlyReads_jamTicks _ _ s)

/-- Settles O52: no action of the instruction's microprogram sets up a write cycle, so no tick of its run stores. -/
theorem nonStoringInstructions : Obligations.NonStoringInstructions := by
  intro i s t ha hbrk hjsr hx k
  rw [State.readByte, exec_mem ha hbrk hjsr hx]
  rfl

end Sys2Proof.Machine
end

section
/-!
Instructions that store: O53. They write where their addressing ticks come to, or push.
-/
namespace Sys2Proof.Machine

/-! ### Bytes beside the one stored -/

theorem Memory.read_write_word_other {m : Memory} (hw : m.wf) {j k : Word} (v : Byte) (hk : k ≠ j) :
    (m.write j.toNat v).read k.toNat = m.read k.toNat :=
  Memory.read_write_other hw v fun h => hk (BitVec.eq_of_toNat_eq h).symm

theorem commit_readByte_other {s : State} (hw : s.mem.wf) {k : Word} (hk : k ≠ s.addr) : s.commit.readByte k = s.readByte k := by
  simp only [State.readByte, State.commit]
  split
  · exact Memory.read_write_word_other hw _ hk
  · rfl

/-- Completing with one byte of memory stored leaves the others. -/
theorem Completes.readByte_other {i : Instr} {s t : State} {r : Arch} (hc : Completes i s r) (hx : exec i s = .next t)
    (hw : s.mem.wf) {ea k : Word} {v : Byte} (hr : r.mem = s.mem.write ea.toNat v) (hk : k ≠ ea) :
    t.readByte k = s.readByte k := by
  obtain ⟨u, hu, rfl, -⟩ := hc
  obtain rfl := Host.Outcome.next.inj (hu.symm.trans hx)
  rw [State.readByte, show u.mem = _ from hr]
  exact Memory.read_write_word_other hw v hk

/-! ### Store forms -/

/-- The addressing ticks of an instruction on an operand come to its effective address, where they do not skip a sub-cycle. -/
theorem addresses_effective {i : Instr} (ho : operatesOnOperand i = true) (hm : modeOf i ≠ .imm) {k : Access} (hk : k ≠ .read)
    {s : State} (hb : s.AtBoundary) :
    ∃ len base, Addresses (modeOf i) k i (operandReads i) len (effectiveAddress i s) base s := by
  rw [operandReads_eq ho, effectiveAddress]
  cases h : modeOf i with
  | none | jmp | jsr | inv => simp [operatesOnOperand, h] at ho
  | imm => exact absurd h hm
  | zp => exact ⟨_, _, addresses_zp hb _ k⟩
  | zpx => exact ⟨_, _, addresses_zpx hb _ k⟩
  | zpy => exact ⟨_, _, addresses_zpy hb _ k⟩
  | abs => exact ⟨_, _, addresses_abs hb _ k⟩
  | abx => exact ⟨_, _, addresses_abx hb _ hk⟩
  | aby => exact ⟨_, _, addresses_aby hb _ hk⟩
  | idx => exact ⟨_, _, addresses_idx hb _ k⟩
  | idy => exact ⟨_, _, addresses_idy hb _ hk⟩

/-- A store action leaves the address pins, the sub-cycle and memory: the tick's write cycle stores at the address there is. -/
structure StoresInPlace (store : State → State) : Prop extends Steady fun _ => store where
  blind : EnvBlind fun _ => store := by exact fun _ _ n _ => ⟨n, rfl⟩
  addr : ∀ s, (store s).addr = s.addr := by exact fun _ => rfl
  mem : ∀ s, (store s).mem = s.mem := by exact fun _ => rfl

theorem microprogram_stores {i : Instr} (ho : operatesOnOperand i = true) (ha : accessOf i = .write) :
    modeOf i ≠ .imm ∧ ∃ store, microprogram i = writeTicks (modeOf i) store ∧ StoresInPlace store := by
  cases i <;> cases ha <;> cases ho <;> exact ⟨nofun, _, rfl, {}⟩

/-- The quiet run of a store form ends in the memory that the write cycle at its address leaves. -/
theorem quietInstr_write_mem {i : Instr} {m : Mode} {store : State → State} (hst : StoresInPlace store) {operand : List (Option Byte)}
    {len ea base : Word} {s : State} (hr : Addresses m .write i operand len ea base s) : ∃ u : State, u.addr = ea ∧ u.mem = s.mem ∧
      (quietInstr i (writeTicks m store) operand s).mem = u.commit.mem := by
  obtain ⟨d, hq⟩ := hr (fun _ s => store s) [fetchTick]
  have hlen := length_addressing_le m .write
  have hat : (writeTicks m store)[(addressing m .write).length]? = some fetchTick := by
    rw [writeTicks, List.getElem?_append_right (by rw [length_appendLast]), length_appendLast]
    simp
  let u := store (s.during i.opcode (addressing m .write).length (s.pc + len) base ea d)
  have hfetch : quietTicks (writeTicks m store) operand 1 u.commit = _ :=
    quietTicks_step (n := 0) (op := i.opcode) (hst.sync ⟨d, false⟩ _) (hst.ir ⟨d, false⟩ _) (by omega) hat
  exact ⟨u, hst.addr _, hst.mem _, (congrArg State.mem (hq.trans hfetch)).trans rfl⟩

theorem blind_writeTicks {store : State → State} (h : StoresInPlace store) (m : Mode) : ∀ act ∈ writeTicks m store, EnvBlind act :=
  List.forall_mem_append.mpr ⟨blind_appendLast h.blind (blind_addressing m .write), List.forall_mem_singleton.mpr blind_fetchTick⟩

/-! ### The three kinds of storing instructions -/

section
variable {i : Instr} {s t : State} (hb : s.AtBoundary) (hw : s.mem.wf) (hx : exec i s = .next t) {k : Word}
  (hk : k ≠ effectiveAddress i s)
include hb hw hx hk

theorem write_readByte_other (ho : operatesOnOperand i = true) (ha : accessOf i = .write) : t.readByte k = s.readByte k := by
  obtain ⟨himm, store, hp, hst⟩ := microprogram_stores ho ha
  obtain ⟨len, base, haddr⟩ := addresses_effective ho himm (k := .write) (by decide) hb
  obtain ⟨u, huaddr, humem, hmem⟩ := quietInstr_write_mem hst haddr
  obtain ⟨n, ls, hq⟩ := runFrom_quiet (blind_writeTicks hst (modeOf i)) (enterOpcode_blind i.opcode) (some i.opcode) (operandReads i) s
  rw [exec_eq_runInstr ho, hp] at hx
  obtain rfl := Host.Outcome.next.inj hx
  have ht : (runFrom (fun s => s.enterOpcode i.opcode) (some i.opcode) (writeTicks (modeOf i) store) (operandReads i) s).mem =
      u.commit.mem := (congrArg State.mem hq).trans hmem
  have hu : u.commit.readByte k = u.readByte k := commit_readByte_other (humem ▸ hw) (huaddr ▸ hk)
  rw [State.readByte, ht]
  exact hu.trans (congrArg (Memory.read · k.toNat) humem)

theorem modify_readByte_other (ha : accessOf i = .readWrite) : t.readByte k = s.readByte k := by
  obtain ⟨f, effect, hp, hf⟩ := microprogram_modifies ha
  obtain ⟨len, base, haddr⟩ := addresses_readWrite ha hb
  obtain ⟨n, hn, ho⟩ := length_addressing_readWrite ha
  have hlen := length_addressing_le (modeOf i) .readWrite
  have hexec := exec_eq_runInstr (operates_of_readWrite ha) s
  rw [hp] at hexec
  have hmem : ∀ v r, (effect v r).2.mem = r.mem := fun v r => congrArg (·.2.mem) (hf.mem v r r.mem)
  have hc := completes_modify hexec hf hb hw (by omega) (by omega) haddr
  exact hc.readByte_other hx hw (congrArg (Memory.write · _ _) (hmem _ _)) hk

theorem push_readByte_other (ho : operatesOnOperand i = false) (ha : accessOf i = .write) : t.readByte k = s.readByte k := by
  cases i <;> cases ho <;> cases ha
  case pha =>
    have hc : Completes .pha s ((s.arch.skip 1).push s.a) :=
      completes_push (v := State.a) rfl (fun _ hu => congrArg Arch.a hu) (fun _ _ _ => rfl) hb
    exact hc.readByte_other hx hw rfl hk
  case php =>
    have hc : Completes .php s ((s.arch.skip 1).push (pushedStatus s.p)) :=
      completes_push (v := fun s => pushedStatus s.p) rfl (fun _ hu => congrArg (pushedStatus ·.p) hu) (fun _ _ _ => rfl) hb
    exact hc.readByte_other hx hw rfl hk

end

/-- Settles O53: a store form by the write cycle in its last addressing tick, PHA and PHP by their push, a read-modify-write form by its
result. -/
theorem storingInstructions : Obligations.StoringInstructions := by
  intro i s t hb hw ha hx k hk
  rcases ha with ha | ha
  · cases ho : operatesOnOperand i with
    | true => exact write_readByte_other hb hw hx hk ho ha
    | false => exact push_readByte_other hb hw hx hk ho ha
  · exact modify_readByte_other hb hw hx hk ha

end Sys2Proof.Machine
end

section
/-!
Single steps and single ticks: O55 and O6.
-/
namespace Sys2Proof.Machine

/-- Only RDY, a read cycle and an older core make a stall. -/
theorem stalls_eq_true {s : State} {l : Lines} (hl : l.rdy = true) (hrw : s.rw = false) (hnew : s.isNew = false) : s.stalls l = true := by
  simp [State.stalls, hl, hrw, hnew]

theorem stalls_eq_false {s : State} (h : s.rw = true ∨ s.isNew = true) (l : Lines) : s.stalls l = false := by
  rcases h with h | h <;> simp [State.stalls, h]

/-- The pins and the pipelines after a stalled tick (40_execution.md R104), in the JAM state and outside it. -/
theorem coreTick_of_stalls {s : State} {inp : Input} (h : s.stalls inp.lines = true) : coreTick inp s =
    { s with
      addr := if s.inJam then 0xFFFF else s.addr
      dout := if s.inJam then 0xFF else s.dbus inp.din
      intr := (s.intr.sample inp.lines (s.flag .i)).stallShift } := by
  rw [coreTick, if_pos h]
  cases hj : s.inJam <;> rfl

/-- The NMI pipeline moves by one place or by none. -/
theorem stallShift_nmiPip (n : Intr) : n.stallShift.nmiPip = n.nmiPip <<< (if Config.rdyShiftsNmi then 1 else 0) := by
  simp only [Intr.stallShift]
  split
  · rfl
  · exact (BitVec.shiftLeft_zero _).symm

/-- Settles O55: RDY is read by the stall alone, and a stall only samples and shifts. -/
theorem rdyStall : Obligations.RdyStall := by
  intro s inp hrdy
  refine ⟨fun hrw hnew => ?_, fun h => ?_⟩
  · have hbus : s.dbus inp.din = inp.din := if_neg (by simp [hrw])
    rw [coreTick_of_stalls (stalls_eq_true hrdy hrw hnew), hbus]
    congr 1
    exact congrArg (Intr.mk _ · _ _) (stallShift_nmiPip _)
  · rw [coreTick, coreTick, stalls_eq_false h, stalls_eq_false h]
    rfl

/-- Settles O6: the decoder reads from the three bytes the instruction that the step fetches. -/
theorem stepRunsTheDecodedInstruction : Obligations.StepRunsTheDecodedInstruction := by
  rintro s i rest ⟨hsync, hrw, haddr, -⟩ hreq hdec
  obtain ⟨_, hthree⟩ := decode_three (s.readByte s.pc) (s.readByte (s.pc + 1)) (s.readByte (s.pc + 2))
  obtain ⟨rfl, -⟩ := Decoded.ok.inj (hthree.symm.trans hdec)
  have hbus : s.dbus (s.readByte s.addr) = s.readByte s.pc := by rw [State.dbus, hrw, haddr]; rfl
  rw [step, if_pos hsync, if_neg (by simp [hreq]), fetched, hbus]

end Sys2Proof.Machine
end

section
/-!
SUPPORT. The states that ticks come to, whatever the lines do: a cycle of a run, with the stalls before it, is as many ticks (40_execution.md
R104, R106, R107).
-/
namespace Sys2Proof.Machine

/-! ### The states that ticks come to -/

/-- Some number of ticks leads from the first state to the second. -/
def Reaches (s t : State) : Prop := ∃ n, t = ticks n s

theorem Reaches.refl (s : State) : Reaches s s := ⟨0, rfl⟩

theorem ticks_add (m n : Nat) (s : State) : ticks (m + n) s = ticks n (ticks m s) := by
  induction n with
  | zero => rfl
  | succ n ih => rw [← Nat.add_assoc, ticks_succ, ticks_succ, ih]

theorem Reaches.trans {s t u : State} (h : Reaches s t) (k : Reaches t u) : Reaches s u := by
  obtain ⟨m, rfl⟩ := h
  obtain ⟨n, rfl⟩ := k
  exact ⟨m + n, (ticks_add m n s).symm⟩

/-- What is reached from the next state is reached from this one. -/
theorem Reaches.of_tick {s t : State} (h : Reaches (tick s) t) : Reaches s t := Reaches.trans ⟨1, rfl⟩ h

theorem Reaches.tick {s t : State} (h : Reaches s t) : Reaches (tick s) (tick t) := by
  obtain ⟨n, rfl⟩ := h
  exact ⟨n, (ticks_succ n s).symm⟩

/-! ### The bytes that a run is given -/

/-- The byte given for the coming tick is the one that the bus has anyway. -/
def State.Fed (s : State) (data : Option Byte) : Prop := s.busByte data = s.busByte none

theorem State.Fed.of_none (s : State) : s.Fed none := rfl

/-- On a read cycle, the byte of memory at the address pins. -/
theorem State.Fed.of_read {s : State} {v : Byte} (h : v = s.readByte s.addr) : s.Fed (some v) := by
  rw [State.Fed, h]
  rfl

theorem State.Fed.sampled_eq {s : State} {data : Option Byte} (h : s.Fed data) :
    s.sampled (s.busInput data) = s.sampled (s.busInput none) := by
  simp only [State.sampled, State.busInput]
  rw [show s.dbus _ = _ from h]
  rfl

theorem rw_of_stalls {s : State} {l : Lines} (h : s.stalls l = true) : s.rw = false := by
  simp only [State.stalls, Bool.and_eq_true, Bool.not_eq_true'] at h
  exact h.1.2

/-- Stalls change neither memory nor the address, and do not come in a write cycle. -/
theorem busByte_withEnv {s : State} {d : Byte} (hd : s.rw = true → d = s.dout) (n : Intr) (ls : List Lines) (data : Option Byte) :
    ({ s.withEnv n ls with dout := d } : State).busByte data = s.busByte data := ite_congr rfl hd fun _ => rfl

theorem stallTick_platform {s : State} (hrw : s.rw = false) (inp : Input) : ∃ n d,
    (s.stallTick inp).platform = { s.withEnv n s.lines.tail with dout := d } :=
  ⟨_, _, by simp only [State.stallTick, State.platform, State.sampled, State.withEnv, hrw]; rfl⟩

theorem awaitReady_of_fed {data : Option Byte} (ls : List Lines) {s : State} (h : s.Fed data) :
    awaitReady State.stallTick data ls s = awaitReady State.stallTick none ls s := by
  induction ls generalizing s with
  | nil => rfl
  | cons l ls ih =>
    rw [awaitReady, awaitReady]
    split
    · next hl =>
      have hstall : s.stallTick (s.busInput data) = s.stallTick (s.busInput none) := by
        simp only [State.stallTick, h.sampled_eq]
      obtain ⟨n, d, he⟩ := stallTick_platform (rw_of_stalls hl) (s.busInput none)
      rw [hstall, he]
      have hbus := busByte_withEnv (s := s) (d := d) (by simp [rw_of_stalls hl]) n s.lines.tail
      exact ih ((hbus data).trans (h.trans (hbus none).symm))
    · rfl

/-- The state before the next tick that is not stalled, outside the JAM state. -/
def State.ready (s : State) : State := awaitReady State.stallTick none s.lines s

/-- Waiting changes the environment and, while the core reads, the data pins. -/
theorem State.ready_eq (s : State) : ∃ n ks d, s.ready = { s.withEnv n ks with dout := d } ∧ (s.rw = true → d = s.dout) :=
  awaitReady_eq none s.lines s

/-- The state that the action of the next tick that is not stalled finds, outside the JAM state. -/
def State.latched (s : State) : State := s.ready.sampled (s.ready.busInput none)

theorem State.latched_eq (s : State) : ∃ n ks d, s.latched = { s.withEnv n ks with dout := d } := by
  obtain ⟨n, ks, d, he, -⟩ := s.ready_eq
  rw [State.latched, he]
  exact ⟨_, ks, _, rfl⟩

theorem State.latched_sync (s : State) : s.latched.sync = s.sync := by
  obtain ⟨n, ks, d, he⟩ := s.latched_eq
  rw [he]
  rfl

theorem State.latched_irOpcode (s : State) : s.latched.irOpcode = s.irOpcode := by
  obtain ⟨n, ks, d, he⟩ := s.latched_eq
  rw [he]
  rfl

theorem busByte_ready (s : State) (data : Option Byte) : s.ready.busByte data = s.busByte data := by
  obtain ⟨n, ks, d, he, hd⟩ := s.ready_eq
  exact he ▸ busByte_withEnv hd n ks data

theorem State.Fed.ready {s : State} {data : Option Byte} (h : s.Fed data) : s.ready.Fed data :=
  (busByte_ready s data).trans (h.trans (busByte_ready s none).symm)

/-- A cycle that is given what the bus has anyway is one that reads the bus. -/
theorem cycle_of_fed {act : Action} {data : Option Byte} {s : State} (h : s.Fed data) : cycle act data s = cycle act none s := by
  have hlive : s.ready.liveTick act (s.ready.busInput data) = s.ready.liveTick act (s.ready.busInput none) := by
    simp only [State.liveTick, h.ready.sampled_eq]
    rw [show s.ready.dbus (s.ready.busInput data).din = _ from h.ready]
    rfl
  rw [cycle, cycleWith, awaitReady_of_fed s.lines h]
  exact congrArg State.platform hlive

/-! ### A cycle is as many ticks -/

/-- From this state on, these are the stalled ticks of the core, in the JAM state or outside it. -/
def StallsAs (stall : State → Input → State) (s : State) : Prop :=
  ∀ u : State, u.inJam = s.inJam → ∀ inp, stall u inp = if u.inJam then u.jamStallTick inp else u.stallTick inp

theorem stallsAs_stallTick {s : State} (h : s.inJam = false) : StallsAs State.stallTick s := by
  intro u hu inp
  rw [hu, h]
  rfl

theorem stallsAs_jamStallTick {s : State} (h : s.inJam = true) : StallsAs State.jamStallTick s := by
  intro u hu inp
  rw [hu, h]
  rfl

/-- A stalled tick of the core. -/
theorem StallsAs.tick_eq {stall : State → Input → State} {s : State} (h : StallsAs stall s) (hs : s.stalls s.line = true) :
    tick s = (stall s (s.busInput none)).platform := by
  rw [tick, coreTick, if_pos (by exact hs), h s rfl]

/-- A stalled tick leaves the JAM state, or what is outside it, where it was. -/
theorem StallsAs.next {stall : State → Input → State} {s : State} (h : StallsAs stall s) (inp : Input) :
    StallsAs stall (stall s inp).platform ∧ (stall s inp).platform.lines = s.lines.tail := by
  have hs : (stall s inp).platform.inJam = s.inJam ∧ (stall s inp).platform.lines = s.lines.tail := by
    rw [h s rfl]
    split <;> exact ⟨rfl, rfl⟩
  exact ⟨fun u hu => h u (hu.trans hs.1), hs.2⟩

/-- A tick of the core that nothing stalls. -/
theorem tick_of_not_stalls {s : State} (h : s.stalls s.line = false) :
    tick s = (microTick { dbus := s.busByte none, res := s.line.res } (s.sampled (s.busInput none))).afterTick := by
  rw [tick, coreTick, if_neg (Bool.eq_false_iff.mp (by exact h)), liveTick_platform]
  rfl

/-- Waiting is as many ticks, and the next is not stalled. -/
theorem awaitReady_reaches {stall : State → Input → State} {s : State} (h : StallsAs stall s) :
    Reaches s (awaitReady stall none s.lines s) ∧
      (awaitReady stall none s.lines s).stalls (awaitReady stall none s.lines s).line = false := by
  generalize hl : s.lines = ls
  induction ls generalizing s with
  | nil => exact ⟨.refl s, by simp [awaitReady, State.stalls, State.line, hl, Lines.idle]⟩
  | cons l ls ih =>
    have hline : s.line = l := by rw [State.line, hl]; rfl
    rw [awaitReady]
    split
    · next hs =>
      have ht := h.tick_eq (hline ▸ hs)
      obtain ⟨hstall, hlines⟩ := h.next (s.busInput none)
      obtain ⟨hr, hn⟩ := ih hstall (by rw [hlines, hl, List.tail_cons])
      exact ⟨Reaches.of_tick (ht ▸ hr), hn⟩
    · next hs => exact ⟨.refl s, by simpa [hline] using hs⟩

/-- A cycle whose action is what the core does is as many ticks, of which there is one at least. -/
theorem cycleWith_reached {stall : State → Input → State} {s : State} (h : StallsAs stall s) {act : Action}
    (hact : let u := awaitReady stall none s.lines s
      ∀ res, microTick { dbus := u.busByte none, res := res } (u.sampled (u.busInput none)) =
        act { dbus := u.busByte none, res := res } (u.sampled (u.busInput none))) :
    Reaches (tick s) (cycleWith stall act none s) := by
  obtain ⟨hr, hn⟩ := awaitReady_reaches h
  have ht := tick_of_not_stalls hn
  rw [hact] at ht
  rw [show cycleWith stall act none s = _ from ht.symm]
  exact hr.tick

/-- The micro-operation of a tick that is at no boundary is that of the microprogram IR names. -/
theorem microTick_of_sync {s : State} (h : s.sync = false) (c : Seen) :
    microTick c s = microStep (microprogramOf s.irOpcode) c s := by
  rw [microTick, h]
  rfl

theorem inJam_eq_false {s : State} (h : s.irOpcode ∉ jamCodes) : s.inJam = false :=
  Bool.eq_false_iff.mpr fun hj => h ((inJam_iff s).mp hj).2.2

theorem inJam_of_sync {s : State} (h : s.sync = true) : s.inJam = false :=
  Bool.eq_false_iff.mpr fun hj => by simp [((inJam_iff s).mp hj).1] at h

theorem cycle_reached {s : State} (hj : s.inJam = false) {act : Action}
    (hact : ∀ res, microTick { dbus := s.busByte none, res := res } s.latched = act { dbus := s.busByte none, res := res } s.latched) :
    Reaches (tick s) (cycle act none s) :=
  cycleWith_reached (stallsAs_stallTick hj) fun res => (busByte_ready s none).symm ▸ hact res

/-- A sub-cycle of a run is as many ticks. -/
theorem subCycle_reached {s : State} {data : Option Byte} (hs : s.sync = false) (hj : s.irOpcode ∉ jamCodes) (hd : s.Fed data) :
    Reaches s (cycle (microStep (microprogramOf s.irOpcode)) data s) := by
  rw [cycle_of_fed hd]
  refine (cycle_reached (inJam_eq_false hj) fun res => ?_).of_tick
  rw [microTick_of_sync (s.latched_sync.trans hs), s.latched_irOpcode]

/-! ### A run is as many ticks -/

theorem runTicks_done {prog : List Action} {operand : List (Option Byte)} {n : Nat} {s : State} (hs : s.sync = true) :
    runTicks prog operand n s = s := by
  cases n <;> simp [runTicks, hs]

theorem runTicks_succ (prog : List Action) (operand : List (Option Byte)) (n : Nat) (s : State) :
    runTicks prog operand (n + 1) s = runTicks prog operand 1 (runTicks prog operand n s) := by
  induction n generalizing s with
  | zero => rfl
  | succ n ih =>
    by_cases hs : s.sync = true
    · rw [runTicks_done hs, runTicks_done hs, runTicks_done hs]
    · have hstep : ∀ n, runTicks prog operand (n + 1) s =
          runTicks prog operand n (cycle (microStep prog) (operand[s.subCycle]?.getD none) s) := fun n => by rw [runTicks, if_neg hs]
      rw [hstep, hstep n]
      exact ih _

/-- A run whose states are at sub-cycles of its opcode, given what the bus has, is as many ticks. -/
theorem runTicks_reached {code : Byte} (hj : code ∉ jamCodes) {operand : List (Option Byte)} {n : Nat} {u : State}
    (h : ∀ j < n, let v := runTicks (microprogramOf code) operand j u
      v.sync = false → v.irOpcode = code ∧ v.Fed (operand[v.subCycle]?.getD none)) :
    Reaches u (runTicks (microprogramOf code) operand n u) := by
  induction n with
  | zero => exact .refl u
  | succ n ih =>
    refine (ih fun j hjn => h j (by omega)).trans ?_
    have hn := h n (by omega)
    rw [runTicks_succ]
    generalize runTicks (microprogramOf code) operand n u = v at hn ⊢
    rw [runTicks]
    split
    · exact .refl v
    · next hs =>
      obtain ⟨hcode, hfed⟩ := hn (by simpa using hs)
      subst hcode
      exact subCycle_reached (by simpa using hs) hj hfed

end Sys2Proof.Machine
end

section
/-!
A step is a whole number of ticks, whatever the lines do: O9, and with it O8.
-/
namespace Sys2Proof.Machine

/-! ### The interrupt sequence -/

/-- The boundary that recognises an interrupt or a reset. -/
theorem microTick_of_recognised {s : State} (hs : s.sync = true) (hr : s.requests.any = true) (c : Seen) :
    microTick c s = microStep interruptTicks c s.enterInterrupt := by
  have hcode : s.enterInterrupt.irOpcode = 0 := irOpcode_of_ir (code := 0) (k := 0) rfl (by decide)
  rw [microTick, if_pos hs, State.boundary, if_pos hr, hcode]
  rfl

/-- The ticks of the interrupt sequence leave IR to the run. -/
theorem interruptTicks_ir : ∀ act ∈ interruptTicks, ∀ c s, (act c s).ir = s.ir := by
  have hpush : ∀ (v : Byte) (s : State), (s.pushUnlessReset v).ir = s.ir := fun v s => by
    rw [State.pushUnlessReset]
    split <;> rfl
  simp only [interruptTicks, List.forall_mem_cons, List.not_mem_nil, false_implies, implies_true, and_true]
  refine ⟨fun _ _ => rfl, fun c s => ?_, fun _ _ => hpush _ _, fun _ _ => hpush _ _, fun _ _ => rfl, fun _ _ => rfl, fun _ _ => rfl⟩
  rw [pushPcHighTick_eq]
  exact hpush _ _

theorem microStep_ir {prog : List Action} (h : ∀ act ∈ prog, ∀ c s, (act c s).ir = s.ir) (c : Seen) (s : State) :
    (microStep prog c s).ir = s.ir + 1 := by
  simp only [microStep]
  split
  · next act hact => exact h act (List.mem_of_getElem? hact) c _
  · rfl

/-- A run of ticks that leave IR to it counts them there, until a fetch is set up. -/
theorem runTicks_ir {prog : List Action} (h : ∀ act ∈ prog, ∀ c s, (act c s).ir = s.ir) {operand : List (Option Byte)} {code : Byte}
    {k n : Nat} {u : State} (hu : u.ir = irAt code k) (hs : (runTicks prog operand n u).sync = false) :
    (runTicks prog operand n u).ir = irAt code (k + n) := by
  induction n generalizing k u with
  | zero => exact hu
  | succ n ih =>
    by_cases hsync : u.sync = true
    · rw [runTicks_done hsync, hsync] at hs
      cases hs
    · rw [runTicks, if_neg hsync] at hs ⊢
      obtain ⟨m, ks, d, c, he⟩ := cycle_eq (microStep prog) (operand[u.subCycle]?.getD none) u
      have hc : (cycle (microStep prog) (operand[u.subCycle]?.getD none) u).ir = irAt code (k + 1) := by
        rw [he, ← irAt_succ, ← hu]
        exact microStep_ir h c _
      rw [ih hc hs, Nat.add_right_comm, Nat.add_assoc]

/-- Taking an interrupt or a reset is as many ticks. -/
theorem takeInterrupt_reached {s : State} (hs : s.sync = true) (hr : recognises s = true) : Reaches (tick s) (takeInterrupt s) := by
  have hfirst : Reaches (tick s) (cycle (fun c s => microStep interruptTicks c s.enterInterrupt) none s) :=
    cycle_reached (inJam_of_sync hs) fun res => microTick_of_recognised (s.latched_sync.trans hs) hr _
  have hstart : (cycle (fun c s => microStep interruptTicks c s.enterInterrupt) none s).ir = irAt 0 1 := by
    obtain ⟨n, ks, d, c, he⟩ := cycle_eq (fun c s => microStep interruptTicks c s.enterInterrupt) none s
    rw [he]
    exact microStep_ir interruptTicks_ir c _
  refine hfirst.trans (runTicks_reached (code := 0) (by decide) fun j hj hv => ?_)
  have hir := runTicks_ir interruptTicks_ir hstart hv
  have hlen : j < 6 := hj
  exact ⟨irOpcode_of_ir hir (by omega), .of_none _⟩

/-! ### An instruction -/

/-- The boundary that starts the instruction on the bus. -/
theorem microTick_of_opcode {s : State} (hs : s.sync = true) (hr : s.requests.any = false) (c : Seen) :
    microTick c s = microStep (microprogramOf c.dbus) c (s.enterOpcode c.dbus) := by
  have hcode : (s.enterOpcode c.dbus).irOpcode = c.dbus := irOpcode_of_ir (k := 0) (irAt_zero _) (by decide)
  rw [microTick, if_pos hs, State.boundary, if_neg (by simp [hr]), hcode]

/-- Where nothing is recognised no sequence is under way. -/
theorem brk_of_not_recognises {s : State} (h : recognises s = false) : s.brk = BrkFlags.empty := by
  obtain ⟨n, ks, d, he⟩ := s.latched_eq
  have hreq : s.latched.requests.any = false := h
  simp only [he, State.requests, BrkFlags.any, Bool.or_eq_false_iff] at hreq
  obtain ⟨⟨⟨hirq, -⟩, hnmi, -⟩, hres, -⟩ := hreq
  show BrkFlags.mk s.brk.irq s.brk.nmi s.brk.res = _
  rw [show s.brk.irq = false from hirq, show s.brk.nmi = false from hnmi, show s.brk.res = false from hres]
  rfl

/-- The first cycle of an instruction: its boundary and its T0. -/
def enterCycle (i : Instr) (s : State) : State :=
  cycle (fun c s => microStep (microprogram i) c (s.enterOpcode i.opcode)) (some i.opcode) s

/-- An opcode fetch is set up, and the next tick that is not stalled starts this instruction. -/
structure State.Fetches (s : State) (i : Instr) : Prop where
  sync : s.sync = true
  unrequested : recognises s = false
  fetched : fetched s = i

section
variable {s : State} {i : Instr} (h : s.Fetches i)
include h

theorem State.Fetches.busByte : s.busByte none = i.opcode := by
  obtain rfl := h.fetched
  exact (decodeInstr_opcode _ _ _).symm

theorem State.Fetches.fed : s.Fed (some i.opcode) := by
  rw [State.Fed, ← h.busByte]
  cases hrw : s.rw <;> simp [State.busByte, State.dbus, hrw]

theorem State.Fetches.enterCycle_reached : Reaches (tick s) (enterCycle i s) := by
  have ht := fun c => microTick_of_opcode (s.latched_sync.trans h.sync) h.unrequested c
  rw [enterCycle, cycle_of_fed h.fed]
  refine cycle_reached (inJam_of_sync h.sync) fun res => ?_
  rw [h.busByte, ht, microprogramOf_opcode]

/-- After it the run of an instruction other than JAM stands at a later sub-cycle, or at the next boundary. -/
theorem State.Fetches.enterCycle_progressed (hj : isJam i = false) :
    (enterCycle i s).Progressed i.opcode (microprogram i).length 0 := by
  have hf := (obeys_microprogram hj).flows
  obtain ⟨n, ks, d, c, he⟩ := cycle_eq (fun c s => microStep (microprogram i) c (s.enterOpcode i.opcode)) (some i.opcode) s
  have hbrk := brk_of_not_recognises h.unrequested
  have hmid : (State.enterOpcode { s.withEnv n ks with dout := d } i.opcode).Midway i.opcode 0 := ⟨rfl, irAt_zero _, hbrk⟩
  rw [enterCycle, he]
  exact (microStep_progress hf hf.pos hmid c).afterTick

end

/-- After `j` more cycles it stands at a sub-cycle later than `j`, or at the next boundary. -/
theorem runTicks_progressed {code : Byte} {prog : List Action} (hf : Flows code prog) (operand : List (Option Byte)) {u : State}
    (hu : u.Progressed code prog.length 0) (j : Nat) : (runTicks prog operand j u).Progressed code prog.length j := by
  induction j with
  | zero => exact hu
  | succ j ih =>
    rw [runTicks_succ]
    rcases ih with hb | ⟨k, hjk, hk, hm⟩
    · rw [runTicks_done hb.1]
      exact .inl hb
    · rw [runTicks, if_neg (by simp [hm.1])]
      refine (cycle_progress hf hk hm _).imp_right ?_
      rintro ⟨k', hk', hm'⟩
      exact ⟨k', by omega, hm'⟩

/-! ### Operand bytes -/

/-- A microprogram reads the operand bytes of its instruction in the ticks of the next cycles (40_execution.md R111-R119). -/
inductive OperandsFirst : List Byte → List Action → Prop
  | none (prog : List Action) : OperandsFirst [] prog
  | one (v : Byte) (rest : List Action) : OperandsFirst [v] (operandTick :: rest)
  | two (v w : Byte) (rest : List Action) : OperandsFirst [v, w] (operandTick :: secondOperandTick :: rest)

theorem operandsFirst {i : Instr} (hjsr : i.opcode ≠ 0x20) : OperandsFirst i.operandBytes (microprogram i) := by
  cases i
  case jsr => exact absurd rfl hjsr
  all_goals dsimp only [microprogram, Instr.operandBytes]; constructor

/-- The first cycle of an instruction goes from the boundary to T0 of its microprogram. -/
theorem enterCycle_eq {i : Instr} {act : Action} {rest : List Action} (hp : microprogram i = act :: rest) (s : State) :
    ∃ n ks d c, enterCycle i s = (act c ((s.during i.opcode 1 (s.pc + 1) s.ad s.addr d).withEnv n ks)).afterTick := by
  obtain ⟨n, ks, d, c, he⟩ := cycle_eq (fun c s => microStep (microprogram i) c (s.enterOpcode i.opcode)) (some i.opcode) s
  have hsub : (State.enterOpcode { s.withEnv n ks with dout := d } i.opcode).subCycle = 0 :=
    subCycle_of_ir (irAt_zero i.opcode) (by decide)
  rw [enterCycle, he, hp]
  simp only [microStep, hsub, List.getElem?_cons_zero]
  exact ⟨n.keepYoungest, ks, d, c, rfl⟩

/-- The first cycle of an instruction that reads an operand byte in its T0. -/
theorem enterCycle_of_operandTick {i : Instr} {rest : List Action} (hp : microprogram i = operandTick :: rest) (s : State) :
    ∃ n ks d, enterCycle i s = (s.during i.opcode 1 (s.pc + 2) s.ad (s.pc + 1) d).withEnv n ks := by
  obtain ⟨n, ks, d, c, he⟩ := enterCycle_eq hp s
  rw [he, ← pc_two]
  exact ⟨n.shift, ks.tail, d, rfl⟩

/-- After it the bus has the byte after the opcode. -/
theorem enterCycle_fed {i : Instr} {rest : List Action} (hp : microprogram i = operandTick :: rest) {s : State} {v : Byte}
    (hv : v = s.readByte (s.pc + 1)) : (enterCycle i s).subCycle = 1 ∧ (enterCycle i s).sync = false ∧ (enterCycle i s).Fed (some v) := by
  obtain ⟨n, ks, d, he⟩ := enterCycle_of_operandTick hp s
  rw [he]
  exact ⟨subCycle_of_ir (code := i.opcode) rfl (by decide), rfl, .of_read hv⟩

/-- The second cycle of an instruction that reads another operand byte in its T1. -/
theorem cycle_of_secondOperandTick {first : Action} {rest : List Action} (data : Option Byte) {u : State} (h : u.subCycle = 1) :
    let v := cycle (microStep (first :: secondOperandTick :: rest)) data u
    v.addr = u.pc ∧ v.mem = u.mem := by
  obtain ⟨n, ks, d, c, he⟩ := cycle_eq (microStep (first :: secondOperandTick :: rest)) data u
  have hsub : ∀ d, ({ u.withEnv n ks with dout := d } : State).subCycle = 1 := fun _ => h
  rw [he]
  simp only [microStep, hsub, List.getElem?_cons_succ, List.getElem?_cons_zero]
  exact ⟨rfl, rfl⟩

/-- After it the bus has the byte after that. -/
theorem secondCycle_fed {i : Instr} {rest : List Action} (hp : microprogram i = operandTick :: secondOperandTick :: rest) {s : State}
    (data : Option Byte) {w : Byte} (hw : w = s.readByte (s.pc + 2)) :
    (cycle (microStep (microprogram i)) data (enterCycle i s)).Fed (some w) := by
  obtain ⟨n, ks, d, he⟩ := enterCycle_of_operandTick hp s
  obtain ⟨haddr, hmem⟩ := cycle_of_secondOperandTick (first := operandTick) (rest := rest) data (enterCycle_fed hp rfl).1
  rw [← hp] at haddr hmem
  refine .of_read (hw.trans ?_)
  rw [State.readByte, State.readByte, haddr, hmem, he]
  rfl

section
variable {s : State} {i : Instr} (h : s.Fetches i)
include h

theorem State.Fetches.operandBytes : i.operandBytes <+: [s.readByte (s.pc + 1), s.readByte (s.pc + 2)] := by
  rw [← h.fetched]
  exact decodeInstr_operandBytes _ _ _

/-- The bus gives an instruction other than JSR its operand bytes. -/
theorem State.Fetches.operand_fed (hjsr : i.opcode ≠ 0x20) (j : Nat) :
    let v := runTicks (microprogram i) (operandReads i) j (enterCycle i s)
    j < v.subCycle → v.Fed ((operandReads i)[v.subCycle]?.getD none) := by
  intro v hj
  generalize hk : v.subCycle = k at hj ⊢
  have hpre := h.operandBytes
  have hfirst := operandsFirst hjsr
  generalize hp : microprogram i = prog at hfirst
  generalize hb : i.operandBytes = bytes at hfirst hpre
  rw [operandReads, hb]
  obtain _ | ⟨b1, rest⟩ | ⟨b1, b2, rest⟩ := hfirst
  · rw [List.getElem?_eq_none (by exact Nat.one_le_of_lt hj)]
    exact .of_none v
  · obtain ⟨rfl, rfl⟩ | hk2 : j = 0 ∧ k = 1 ∨ 2 ≤ k := by omega
    · exact (enterCycle_fed hp (List.cons_prefix_cons.mp hpre).1).2.2
    · rw [List.getElem?_eq_none hk2]
      exact .of_none v
  · obtain ⟨h1, h2⟩ : b1 = s.readByte (s.pc + 1) ∧ b2 = s.readByte (s.pc + 2) := by simpa using hpre
    obtain ⟨hsub, hsync, hfed⟩ := enterCycle_fed hp h1
    obtain ⟨rfl, rfl⟩ | ⟨rfl, rfl⟩ | ⟨rfl, rfl⟩ | hk3 : j = 0 ∧ k = 1 ∨ j = 0 ∧ k = 2 ∨ j = 1 ∧ k = 2 ∨ 3 ≤ k := by omega
    · exact hfed
    · exact absurd (hsub.symm.trans hk) (by decide)
    · have hv : v = cycle (microStep (microprogram i)) ((operandReads i)[(enterCycle i s).subCycle]?.getD none) (enterCycle i s) :=
        if_neg (Bool.eq_false_iff.mp hsync)
      exact hv ▸ secondCycle_fed hp _ h2
    · rw [List.getElem?_eq_none hk3]
      exact .of_none v

end

theorem exec_eq_runInstr_of_not_jsr {i : Instr} (hj : isJam i = false) (hjsr : i.opcode ≠ 0x20) (s : State) :
    exec i s = runInstr i (microprogram i) s := by
  cases i <;> cases hj
  case jsr => exact absurd rfl hjsr
  all_goals rfl

theorem opcode_not_mem_jamCodes {i : Instr} (hj : isJam i = false) {s : State} (h : s.Fetches i) : i.opcode ∉ jamCodes := by
  obtain ⟨op, b1, b2, rfl⟩ : ∃ op b1 b2, i = decodeInstr op b1 b2 := ⟨_, _, _, h.fetched.symm⟩
  rw [isJam_decodeInstr] at hj
  rw [decodeInstr_opcode]
  simpa using hj

/-- The run of an instruction other than JAM, given what the bus has, is as many ticks. -/
theorem State.Fetches.run_reached {s : State} {i : Instr} (h : s.Fetches i) (hj : isJam i = false) {operand : List (Option Byte)} {n : Nat}
    (hfed : ∀ j < n, let v := runTicks (microprogram i) operand j (enterCycle i s)
      v.sync = false → j < v.subCycle → v.Fed (operand[v.subCycle]?.getD none)) :
    Reaches (tick s) (runTicks (microprogram i) operand n (enterCycle i s)) := by
  have hrun := runTicks_reached (opcode_not_mem_jamCodes hj h) (operand := operand) (n := n) (u := enterCycle i s)
  simp only [microprogramOf_opcode] at hrun
  refine h.enterCycle_reached.trans (hrun fun j hjn hv => ?_)
  have hf := (obeys_microprogram hj).flows
  have hlen := hf.length_le
  rcases runTicks_progressed hf operand (h.enterCycle_progressed hj) j with hb | ⟨k, hjk, hk, -, hir, -⟩
  · exact absurd hb.1 (by simp [hv])
  · have hsub := subCycle_of_ir hir (by omega)
    exact ⟨irOpcode_of_ir hir (by omega), hfed j hjn hv (hsub.symm ▸ hjk)⟩

/-- An instruction other than JAM and JSR is as many ticks. -/
theorem State.Fetches.exec_reached {s : State} {i : Instr} (h : s.Fetches i) (hj : isJam i = false) (hjsr : i.opcode ≠ 0x20) :
    ∃ t, exec i s = .next t ∧ Reaches (tick s) t :=
  ⟨_, exec_eq_runInstr_of_not_jsr hj hjsr s, h.run_reached hj fun j _ _ => h.operand_fed hjsr j⟩

/-! ### JSR -/

/-- A write leaves the byte at every other address as it was, canonical memory or not. -/
theorem Memory.read_write_ne (m : Memory) {j k : Nat} (v : Byte) (hk : j ≠ k) : (m.write j v).read k = m.read k := by
  have hcell : ∀ m : Memory, (Memory.cell j v m).read k = m.read k := fun m => by
    rw [Memory.cell]
    split
    · rfl
    · rw [Memory.read_cons, if_neg hk]
  induction m with
  | nil => exact hcell []
  | cons c m ih =>
    obtain ⟨i, w⟩ := c
    rw [Memory.write]
    split
    · exact hcell _
    · split
      · next hji => rw [hcell, Memory.read_cons, if_neg (hji ▸ hk)]
      · rw [Memory.read_cons, Memory.read_cons, ih]

theorem Memory.read_write_word_ne (m : Memory) {j k : Word} (v : Byte) (hk : k ≠ j) :
    (m.write j.toNat v).read k.toNat = m.read k.toNat :=
  m.read_write_ne v fun h => hk (BitVec.eq_of_toNat_eq h).symm

theorem blind_ticksJsr : ∀ act ∈ ticksJsr, EnvBlind act := by
  refine List.forall_mem_append.mpr ⟨blind_addressing .jsr .read, ?_⟩
  simp only [List.forall_mem_cons, List.not_mem_nil, false_implies, implies_true, and_true]
  exact ⟨fun _ _ n _ => ⟨n, rfl⟩, fun _ _ n _ => ⟨n, rfl⟩, fun _ _ n _ => ⟨n, rfl⟩, fun _ _ n _ => ⟨n, rfl⟩, fun _ _ n _ => ⟨n, rfl⟩⟩

theorem ticksJsr_ir : ∀ act ∈ ticksJsr, ∀ c s, (act c s).ir = s.ir := by
  simp only [ticksJsr, addressing, List.cons_append, List.nil_append, List.forall_mem_cons, List.not_mem_nil, false_implies, implies_true,
    and_true]
  exact ⟨fun _ _ => rfl, fun _ _ => rfl, fun _ _ => rfl, fun _ _ => rfl, fun _ _ => rfl, fun _ _ => rfl⟩

/-- The bytes that the sub-cycles of a JSR are given. -/
def jsrReads (a : Word) (s : State) : List (Option Byte) := [none, some (lo a), none, none, none, jsrHighRead a s]

/-- The state of JSR before it reads the high byte of its target. -/
theorem jsr_before_high {operand : List (Option Byte)} (s : State) (code : Byte) (pc ad addr : Word) (d : Byte) :
    let u := quietTicks ticksJsr operand 4 (s.during code 1 pc ad addr d)
    u.addr = pc ∧ ∃ v w, u.mem = (s.mem.write (stackAddr s.sp).toNat v).write (stackAddr (s.sp - 1)).toNat w := by
  rw [quietTicks_step (k := 1) rfl rfl (by decide) rfl, quietTicks_step (k := 2) rfl rfl (by decide) rfl,
    quietTicks_step (k := 3) rfl rfl (by decide) rfl, quietTicks_step (k := 4) rfl rfl (by decide) rfl]
  exact ⟨rfl, _, _, rfl⟩

/-- The bus gives JSR its operand bytes, the high one after its pushes (44_control_stack.md R236). -/
theorem State.Fetches.jsr_fed {s : State} {a : Word} (h : s.Fetches (.jsr a)) {j : Nat} (hj : j < 5) :
    let v := runTicks ticksJsr (jsrReads a s) j (enterCycle (.jsr a) s)
    v.sync = false → v.Fed ((jsrReads a s)[v.subCycle]?.getD none) := by
  intro v hs
  obtain ⟨n, ks, d, he⟩ := enterCycle_of_operandTick (i := .jsr a) rfl s
  have hir := runTicks_ir ticksJsr_ir (code := Instr.opcode (.jsr a)) (k := 1) (he ▸ rfl) hs
  have hsub : v.subCycle = 1 + j := subCycle_of_ir hir (by omega)
  obtain ⟨hlo, hhi⟩ : lo a = s.readByte (s.pc + 1) ∧ hi a = s.readByte (s.pc + 2) := by
    simpa [Instr.operandBytes, wordBytes] using h.operandBytes
  obtain ⟨m, ls, hq⟩ := runTicks_quiet blind_ticksJsr (jsrReads a s) j (s.during (Instr.jsr a).opcode 1 (s.pc + 2) s.ad (s.pc + 1) d) n ks
  have hv : v = _ := (congrArg (runTicks _ _ j) he).trans hq
  rw [hsub, hv]
  clear_value v
  interval_cases j
  · exact .of_read hlo
  · exact .of_none _
  · exact .of_none _
  · exact .of_none _
  · show State.Fed _ (jsrHighRead a s)
    rw [jsrHighRead]
    split
    · exact .of_none _
    · next hne =>
      obtain ⟨hfirst, hsecond⟩ := not_or.mp hne
      obtain ⟨haddr, v, w, hmem⟩ := jsr_before_high (operand := jsrReads a s) s (Instr.jsr a).opcode (s.pc + 2) s.ad (s.pc + 1) d
      refine .of_read (hhi.trans ?_)
      show s.readByte (s.pc + 2) = Memory.read (quietTicks _ _ 4 _).mem (quietTicks _ _ 4 _).addr.toNat
      rw [haddr, hmem, Memory.read_write_word_ne _ _ hsecond, Memory.read_write_word_ne _ _ hfirst]
      rfl

theorem State.Fetches.jsr_reached {s : State} {a : Word} (h : s.Fetches (.jsr a)) : ∃ t, exec (.jsr a) s = .next t ∧ Reaches (tick s) t :=
  ⟨_, rfl, h.run_reached rfl fun _ hj hv _ => h.jsr_fed hj hv⟩

/-! ### JAM -/

theorem microprogram_jam {i : Instr} (hj : isJam i = true) : microprogram i = jamTicks := by
  rw [← microprogramOf_opcode]
  exact microprogramOf_jam (opcode_mem_jamCodes hj)

/-- In the JAM state a cycle, with its stalls, is as many ticks. -/
theorem jamCycle_reached {s : State} (h : s.inJam = true) :
    Reaches (tick s) (cycleWith State.jamStallTick (microStep jamTicks) none s) := by
  obtain ⟨hsync, -, hcode⟩ := (inJam_iff s).mp h
  obtain ⟨n, ks, j, d, he⟩ := awaitReady_jam s.lines s
  refine cycleWith_reached (stallsAs_jamStallTick h) fun res => ?_
  rw [he, microTick_of_sync (by exact hsync), ← microprogramOf_jam hcode]
  rfl

/-- A JAM is as many ticks: its boundary leads to the JAM state. -/
theorem State.Fetches.jam_reached {s : State} {i : Instr} (h : s.Fetches i) (hj : isJam i = true) :
    ∃ t, exec i s = .next t ∧ Reaches (tick s) t := by
  have hfirst := h.enterCycle_reached
  have hjam : (enterCycle i s).inJam = true := by
    obtain ⟨n, ks, d, c, he⟩ := enterCycle_eq (microprogram_jam hj) s
    rw [he]
    have hir : (s.during i.opcode 1 (s.pc + 1) s.ad s.addr d).ir = irAt i.opcode 1 := rfl
    have hcode := irOpcode_of_ir hir (by decide)
    exact (inJam_iff _).mpr ⟨rfl, subCycle_of_ir hir (by decide), hcode.symm ▸ opcode_mem_jamCodes hj⟩
  have hrun := hfirst.trans (jamCycle_reached hjam).of_tick
  rw [enterCycle, microprogram_jam hj] at hrun
  exact ⟨_, exec_eq_runJam hj s, hrun⟩

/-! ### Every step -/

theorem eq_jsr_of_opcode {i : Instr} (h : i.opcode = 0x20) : ∃ a, i = .jsr a := by
  cases i <;> dsimp only [Instr.opcode] at h <;> cases h
  exact ⟨_, rfl⟩

theorem State.Fetches.reached {s : State} {i : Instr} (h : s.Fetches i) : ∃ t, exec i s = .next t ∧ Reaches (tick s) t := by
  cases hj : isJam i with
  | true => exact h.jam_reached hj
  | false =>
    by_cases hjsr : i.opcode = 0x20
    · obtain ⟨a, rfl⟩ := eq_jsr_of_opcode hjsr
      exact h.jsr_reached
    · exact h.exec_reached hj hjsr

theorem step_reached (s : State) : ∃ t, step s = .next t ∧ Reaches (tick s) t := by
  rw [step]
  split
  · next hs =>
    split
    · next hr => exact ⟨_, rfl, takeInterrupt_reached hs hr⟩
    · next hr => exact State.Fetches.reached ⟨hs, Bool.eq_false_iff.mpr hr, rfl⟩
  · exact ⟨_, rfl, .refl _⟩

/-- Settles O9: from a boundary by the cycles of the run, of which each is as many ticks; from every other state by the one tick. -/
theorem stepIsWholeTicks : Obligations.StepIsWholeTicks := by
  intro s
  obtain ⟨t, ht, n, rfl⟩ := step_reached s
  exact ⟨n + 1, n.succ_pos, ht⟩

/-- Settles O8: a step comes to what its ticks do, and an instruction runs its microprogram. -/
theorem stepAlwaysAnswersNext : Obligations.StepAlwaysAnswersNext := by
  refine ⟨fun s => ?_, fun i s => ?_⟩
  · obtain ⟨t, ht, -⟩ := step_reached s
    exact ⟨t, ht⟩
  · cases hj : isJam i with
    | true => exact ⟨_, exec_eq_runJam hj s⟩
    | false =>
      obtain ⟨operand, he⟩ := exec_eq_runFrom hj s
      exact ⟨_, he⟩

end Sys2Proof.Machine
end

section
/-!
SUPPORT. Bytes as numbers: what the shifts, the masks and the two halves of a word come to.
-/
namespace Sys2Proof.Machine

theorem toNat_bitByte (c : Bool) : (bitByte c).toNat = c.toNat := by cases c <;> rfl

theorem toNat_and_0F (v : Byte) : (v &&& 0x0F).toNat = v.toNat % 16 := Nat.and_two_pow_sub_one_eq_mod v.toNat 4

theorem toNat_ushiftRight_four (v : Byte) : (v >>> 4).toNat = v.toNat / 16 := by
  rw [BitVec.toNat_ushiftRight, Nat.shiftRight_eq_div_pow]

theorem and_F0_eq (v : Byte) : v &&& (0xF0 : Byte) = v >>> 4 <<< 4 := by
  rw [BitVec.shiftLeft_ushiftRight]
  rfl

theorem toNat_and_F0 (v : Byte) : (v &&& (0xF0 : Byte)).toNat = 16 * (v.toNat / 16) := by
  have hv := v.isLt
  rw [and_F0_eq, BitVec.toNat_shiftLeft, toNat_ushiftRight_four, Nat.shiftLeft_eq]
  omega

/-- A byte shifted left and one that fits below it, joined. -/
theorem toNat_shiftLeft_or {h l : Byte} {k : Nat} (hk : k ≤ 8) (hl : l.toNat < 2 ^ k) :
    (h <<< k ||| l).toNat = 2 ^ k * h.toNat % 2 ^ 8 + l.toNat := by
  have hshift : 2 ^ k * h.toNat % 2 ^ 8 = 2 ^ k * (h.toNat % 2 ^ (8 - k)) := by
    rw [← Nat.mul_mod_mul_left, ← Nat.pow_add, Nat.add_sub_cancel' hk]
  rw [BitVec.toNat_or, BitVec.toNat_shiftLeft, Nat.shiftLeft_eq, Nat.mul_comm, hshift, Nat.two_pow_add_eq_or_of_lt hl]

theorem beq_eq_decide_of_iff {v w : Byte} {p : Prop} [Decidable p] (h : v = w ↔ p) : (v == w) = decide p :=
  (Bool.beq_eq_decide_eq v w).trans (decide_eq_decide.mpr h)

theorem hi_eq_zero_iff (w : Word) : hi w = 0 ↔ w.toNat < 256 := by
  have hzero : (0 : Byte).toNat = 0 := rfl
  rw [← BitVec.toNat_inj, toNat_hi, hzero]
  omega

theorem toNat_sub_zext16 (a m : Byte) : (zext16 a - zext16 m).toNat = (65536 - m.toNat + a.toNat) % 65536 := by
  have ha := a.isLt
  have hm := m.isLt
  rw [BitVec.toNat_sub, BitVec.toNat_setWidth, BitVec.toNat_setWidth]
  omega

theorem lo_sub_zext16 (a m : Byte) : lo (zext16 a - zext16 m) = a - m := by
  have ha := a.isLt
  have hm := m.isLt
  apply BitVec.eq_of_toNat_eq
  rw [toNat_lo, toNat_sub_zext16, BitVec.toNat_sub]
  omega

/-- The high byte of a difference of bytes is 0 where nothing is borrowed. -/
theorem hi_sub_zext16_eq_zero_iff (a m : Byte) : hi (zext16 a - zext16 m) = 0 ↔ m ≤ a := by
  have ha := a.isLt
  have hm := m.isLt
  rw [hi_eq_zero_iff, toNat_sub_zext16, BitVec.le_def]
  omega

end Sys2Proof.Machine
end

section
/-!
Compares, BIT and NZ: O48.
-/
namespace Sys2Proof.Machine

theorem getFlag_cmpStatus (p r m : Byte) (f : Flag) : getFlag (cmpStatus p r m) f = match f with
    | .c => hi (zext16 r - zext16 m) == 0 | .z => r - m == 0 | .n => (r - m).msb | f => getFlag p f := by
  cases f <;> simp [cmpStatus, lo_sub_zext16]

/-- Settles O48: by the flag laws of the three updates; a difference of bytes is 0 where they are equal. -/
theorem compareFlags : Obligations.CompareFlags := by
  intro p
  refine ⟨fun r m f => ?_, fun a m f => ?_, fun v f => ?_⟩
  · rw [getFlag_cmpStatus]
    cases f
    case c => exact beq_eq_decide_of_iff (hi_sub_zext16_eq_zero_iff r m)
    case z => exact beq_eq_decide_of_iff sub_eq_zero
    all_goals rfl
  · rw [getFlag_bitStatus]
    cases f <;> rfl
  · rw [getFlag_setNZ]
    cases f <;> rfl

end Sys2Proof.Machine
end

section
/-!
Shifts and rotates: O49.
-/
namespace Sys2Proof.Machine

theorem toNat_asl (v : Byte) : (asl v).1.toNat = 2 * v.toNat % 256 := by
  rw [asl, BitVec.toNat_shiftLeft, Nat.shiftLeft_eq, Nat.mul_comm]

theorem toNat_lsr (v : Byte) : (lsr v).1.toNat = v.toNat / 2 := by
  rw [lsr, BitVec.toNat_ushiftRight, Nat.shiftRight_eq_div_pow]

theorem toNat_rol (v : Byte) (c : Bool) : (rol v c).1.toNat = (2 * v.toNat + c.toNat) % 256 := by
  have hc := c.toNat_lt
  rw [rol, toNat_shiftLeft_or (by decide) (by rwa [toNat_bitByte]), toNat_bitByte]
  omega

theorem toNat_ror (v : Byte) (c : Bool) : (ror v c).1.toNat = 128 * c.toNat + v.toNat / 2 := by
  have hv := v.isLt
  have hc := c.toNat_lt
  have hlow : (v >>> 1).toNat = v.toNat / 2 := toNat_lsr v
  rw [ror, toNat_shiftLeft_or (by decide) (by omega), toNat_bitByte, hlow]
  omega

/-- Settles O49: each result as a number, and the flags by the law of their update. -/
theorem shiftResults : Obligations.ShiftResults := by
  intro v c
  refine ⟨toNat_asl v, rfl, toNat_lsr v, rfl, toNat_rol v c, rfl, toNat_ror v c, rfl, fun p => ⟨?_, fun q f => ?_⟩⟩
  · have hv := v.isLt
    have hlow := toNat_lsr v
    rw [getFlag_shiftStatus, BitVec.msb_eq_decide, decide_eq_false_iff_not]
    omega
  · rw [getFlag_shiftStatus]
    cases f <;> rfl

end Sys2Proof.Machine
end

section
/-!
Binary addition and subtraction: O44, O45. A subtraction is the addition of the complement.
-/
namespace Sys2Proof.Machine

theorem toNat_binarySum (a m : Byte) (c : Bool) :
    (zext16 a + zext16 m + zext16 (bitByte c)).toNat = a.toNat + m.toNat + c.toNat := by
  have ha := a.isLt
  have hm := m.isLt
  have hc := c.toNat_lt
  simp only [BitVec.toNat_add, BitVec.toNat_setWidth, toNat_bitByte]
  omega

theorem toNat_adcBin_r (a m : Byte) (c : Bool) : (adcBin a m c).r.toNat = (a.toNat + m.toNat + c.toNat) % 256 := by
  rw [adcBin, toNat_lo, toNat_binarySum]

theorem adcBin_c (a m : Byte) (c : Bool) : (adcBin a m c).c = decide (256 ≤ a.toNat + m.toNat + c.toNat) := by
  have ha := a.isLt
  have hm := m.isLt
  have hc := c.toNat_lt
  rw [adcBin, BitVec.getLsbD, toNat_binarySum, Nat.testBit_eq_decide_div_mod_eq, decide_eq_decide]
  omega

/-- Operands of one sign and a result of the other. -/
theorem msb_signChange (a m r : Byte) : (~~~(a ^^^ m) &&& (a ^^^ r)).msb = (a.msb == m.msb && a.msb != r.msb) := by
  simp only [BitVec.msb_and, BitVec.msb_not, BitVec.msb_xor]
  cases a.msb <;> cases m.msb <;> rfl

theorem adcBin_v (a m : Byte) (c : Bool) : (adcBin a m c).v = (a.msb == m.msb && a.msb != (adcBin a m c).r.msb) :=
  msb_signChange a m _

/-- V is signed overflow. -/
theorem adcBin_v_iff (a m : Byte) (c : Bool) : (adcBin a m c).v = true ↔
    a.toInt + m.toInt + c.toNat < -128 ∨ 127 < a.toInt + m.toInt + c.toNat := by
  have ha := a.isLt
  have hm := m.isLt
  have hc := c.toNat_lt
  have hr := toNat_adcBin_r a m c
  simp only [adcBin_v, BitVec.toInt_eq_msb_cond, BitVec.msb_eq_decide, hr, Bool.and_eq_true, beq_iff_eq, bne_iff_ne, ne_eq,
    decide_eq_decide, decide_eq_true_eq]
  split <;> split <;> omega

/-- Settles O44: the sum as a number, and V as the sign no sum of such operands has. -/
theorem binaryAddition : Obligations.BinaryAddition := by
  intro a m c
  refine ⟨toNat_adcBin_r a m c, adcBin_c a m c, rfl, Bool.beq_eq_decide_eq _ _, rfl, adcBin_v_iff a m c, fun hv => ?_,
    fun r => ⟨rfl, rfl, getFlag_setNVZC r.p _⟩⟩
  rw [adcBin_v, Bool.and_eq_true, beq_iff_eq] at hv
  exact hv.1

/-- The difference is the sum with the complement, less the 256 that the sum carries where nothing is borrowed. -/
theorem toNat_binaryDifference (a m : Byte) (c : Bool) : (zext16 a - zext16 m - (1 - zext16 (bitByte c))).toNat =
    (65536 - 256 + (a.toNat + (~~~m).toNat + c.toNat)) % 65536 := by
  have ha := a.isLt
  have hm := m.isLt
  have hc := c.toNat_lt
  simp only [BitVec.toNat_sub, BitVec.toNat_setWidth, toNat_bitByte, BitVec.toNat_not, BitVec.reduceToNat]
  omega

theorem sbcBin_eq_adcBin_not (a m : Byte) (c : Bool) : sbcBin a m c = adcBin a (~~~m) c := by
  have ha := a.isLt
  have hm := (~~~m).isLt
  have hc := c.toNat_lt
  have hr : lo (zext16 a - zext16 m - (1 - zext16 (bitByte c))) = (adcBin a (~~~m) c).r := by
    apply BitVec.eq_of_toNat_eq
    rw [toNat_lo, toNat_binaryDifference, toNat_adcBin_r]
    omega
  have hcarry : (hi (zext16 a - zext16 m - (1 - zext16 (bitByte c))) == 0) = (adcBin a (~~~m) c).c := by
    rw [adcBin_c]
    refine beq_eq_decide_of_iff ?_
    rw [hi_eq_zero_iff, toNat_binaryDifference]
    omega
  have hv : (a ^^^ m) = ~~~(a ^^^ ~~~m) := by rw [BitVec.not_xor_right, BitVec.not_not]
  rw [sbcBin, hr, hcarry, hv]
  rfl

theorem toInt_not_byte (m : Byte) : (~~~m).toInt = -m.toInt - 1 := by
  have hm := m.isLt
  simp only [BitVec.toInt_eq_msb_cond, BitVec.msb_eq_decide, BitVec.toNat_not, decide_eq_true_eq]
  split <;> split <;> omega

/-- Settles O45: by O44's facts for the complement. -/
theorem binarySubtraction : Obligations.BinarySubtraction := by
  intro a m c
  have ha := a.isLt
  have hm := m.isLt
  have hc := c.toNat_lt
  have hadd := sbcBin_eq_adcBin_not a m c
  refine ⟨?_, ?_, rfl, Bool.beq_eq_decide_eq _ _, rfl, ?_, hadd, fun r => ⟨rfl, rfl, getFlag_setNVZC r.p _⟩⟩
  · rw [hadd, toNat_adcBin_r, BitVec.toNat_not]
    omega
  · rw [hadd, adcBin_c, BitVec.toNat_not, decide_eq_decide]
    omega
  · rw [hadd, adcBin_v_iff, toInt_not_byte]
    omega

end Sys2Proof.Machine
end

section
/-!
ARR: O47. The rotate is that of ROR; the decimal form corrects one digit and then the other.
-/
namespace Sys2Proof.Machine

/-- The low digit of a decimal ARR: 6 added, with no carry into the high digit, where the low digit of `t` is 5 or more. -/
def arrLow (t r : Byte) : Byte := if 5 ≤ t &&& 0x0F then ((r + 6) &&& 0x0F) ||| (r &&& 0xF0) else r

/-- The high digit of a decimal ARR. -/
def arrHigh (t r : Byte) : Byte := if decide (0x50 ≤ t &&& 0xF0) then r + 0x60 else r

theorem arrDec_r (a m : Byte) (c : Bool) :
    (arrDec a m c).r = arrHigh (a &&& m) (arrLow (a &&& m) (ror (a &&& m) c).1) := rfl

theorem toNat_addToLow (r : Byte) :
    (((r + 6) &&& 0x0F) ||| (r &&& 0xF0)).toNat = 16 * (r.toNat / 16) + (r.toNat % 16 + 6) % 16 := by
  have hr := r.isLt
  have hlow : ((r + 6) &&& 0x0F).toNat = (r.toNat % 16 + 6) % 16 := by
    simp only [toNat_and_0F, BitVec.toNat_add, BitVec.reduceToNat]
    omega
  rw [BitVec.or_comm, and_F0_eq, toNat_shiftLeft_or (by decide) (by omega), toNat_ushiftRight_four, hlow]
  omega

theorem toNat_arrLow (t r : Byte) : (arrLow t r).toNat =
    16 * (r.toNat / 16) + if 5 ≤ t.toNat % 16 then (r.toNat % 16 + 6) % 16 else r.toNat % 16 := by
  simp only [arrLow, BitVec.le_def, toNat_and_0F, BitVec.reduceToNat]
  split
  · exact toNat_addToLow r
  · omega

theorem le_and_F0_iff (t : Byte) : (0x50 : Byte) ≤ t &&& 0xF0 ↔ 5 ≤ t.toNat / 16 := by
  simp only [BitVec.le_def, toNat_and_F0, BitVec.reduceToNat]
  omega

theorem toNat_arrHigh (t r : Byte) : (arrHigh t r).toNat =
    16 * (if 5 ≤ t.toNat / 16 then (r.toNat / 16 + 6) % 16 else r.toNat / 16) + r.toNat % 16 := by
  have hr := r.isLt
  simp only [arrHigh, le_and_F0_iff, decide_eq_true_eq, apply_ite BitVec.toNat, BitVec.toNat_add, BitVec.reduceToNat]
  split <;> omega

theorem arrBin_v (a m : Byte) (c : Bool) :
    (arrBin a m c).v = ((ror (a &&& m) c).1.toNat.testBit 6 != (ror (a &&& m) c).1.toNat.testBit 5) := by
  rw [Bool.bne_eq_xor]
  rfl

theorem arrDec_v (a m : Byte) (c : Bool) :
    (arrDec a m c).v = ((ror (a &&& m) c).1.toNat.testBit 6 != (a &&& m).toNat.testBit 6) := by
  rw [Bool.bne_eq_xor]
  exact BitVec.getLsbD_xor

/-- Settles O47: the result digit by digit; the flags are bits of the rotated byte. -/
theorem arrResults : Obligations.ArrResults := by
  refine ⟨fun a m c => ?_, fun q r => ⟨rfl, rfl, getFlag_setNVZC r.p q⟩⟩
  dsimp only
  rw [← toNat_ror]
  have hz : ((ror (a &&& m) c).1 == 0) = decide ((ror (a &&& m) c).1.toNat = 0) := beq_eq_decide_of_iff BitVec.toNat_inj.symm
  refine ⟨⟨rfl, rfl, hz, rfl, arrBin_v a m c⟩, ?_, rfl, hz, arrDec_v a m c, decide_eq_decide.mpr (le_and_F0_iff _)⟩
  rw [arrDec_r, toNat_arrHigh, toNat_arrLow]
  split <;> split <;> omega

end Sys2Proof.Machine
end

section
/-!
Decimal addition and subtraction of BCD numbers: O46. Each digit is a sum or a difference of two digits, corrected by 6 where it leaves
0-9, and the correction shows in the bit that goes on to the next digit.
-/
namespace Sys2Proof.Machine

/-- The number that two BCD digits write. -/
def bcdValue (v : Byte) : Nat := 10 * (v.toNat / 16) + v.toNat % 16

/-- The byte of two digits; of each only the low nibble counts. -/
def joinDigits (h l : Byte) : Byte := (h <<< 4) ||| (l &&& 0x0F)

/-- A sum of digits, 6 added where it is no digit. -/
def correctUp (v : Byte) : Byte := if 9 < v then v + 6 else v

/-- A difference of digits, 6 subtracted where it is negative. -/
def correctDown (v : Byte) : Byte := if v.msb then v - 6 else v

theorem isBcd_iff (v : Byte) : isBcd v = true ↔ v.toNat % 16 ≤ 9 ∧ v.toNat / 16 ≤ 9 := by
  rw [isBcd, Bool.and_eq_true, decide_eq_true_eq, decide_eq_true_eq, toNat_and_0F, toNat_ushiftRight_four]

theorem toNat_joinDigits (h l : Byte) : (joinDigits h l).toNat = 16 * (h.toNat % 16) + l.toNat % 16 := by
  have hl := toNat_and_0F l
  rw [joinDigits, toNat_shiftLeft_or (by decide) (by omega), hl]
  omega

theorem isBcd_joinDigits {h l : Byte} (hh : h.toNat % 16 ≤ 9) (hl : l.toNat % 16 ≤ 9) : isBcd (joinDigits h l) = true := by
  rw [isBcd_iff, toNat_joinDigits]
  omega

theorem bcdValue_joinDigits (h l : Byte) : bcdValue (joinDigits h l) = 10 * (h.toNat % 16) + l.toNat % 16 := by
  rw [bcdValue, toNat_joinDigits]
  omega

/-! ### Addition -/

theorem toNat_correctUp {v : Byte} (hv : v.toNat ≤ 249) :
    (correctUp v).toNat = if 9 < v.toNat then v.toNat + 6 else v.toNat := by
  simp only [correctUp, BitVec.lt_def, apply_ite BitVec.toNat, BitVec.toNat_add, BitVec.reduceToNat]
  split <;> omega

/-- The corrected sum of two digits and a carry ends in the decimal digit. -/
theorem toNat_correctUp_mod {v : Byte} (hv : v.toNat ≤ 19) : (correctUp v).toNat % 16 = v.toNat % 10 := by
  rw [toNat_correctUp (by omega)]
  split <;> omega

theorem lt_correctUp_iff {v : Byte} (hv : v.toNat ≤ 19) : 0x0F < correctUp v ↔ 9 < v.toNat := by
  simp only [BitVec.lt_def, toNat_correctUp (show v.toNat ≤ 249 by omega), BitVec.reduceToNat]
  split <;> omega

/-- The sum of the units digits. -/
def unitsSum (a m : Byte) (c : Bool) : Byte := (a &&& 0x0F) + (m &&& 0x0F) + bitByte c

/-- The sum of the tens digits, uncorrected. -/
def tensSum (a m : Byte) (c : Bool) : Byte :=
  (a >>> 4) + (m >>> 4) + if 0x0F < correctUp (unitsSum a m c) then 1 else 0

theorem adcDec_r (a m : Byte) (c : Bool) :
    (adcDec a m c).r = joinDigits (correctUp (tensSum a m c)) (correctUp (unitsSum a m c)) := rfl

theorem adcDec_c (a m : Byte) (c : Bool) : (adcDec a m c).c = decide (0x0F < correctUp (tensSum a m c)) := rfl

theorem adcDec_n (a m : Byte) (c : Bool) : (adcDec a m c).n = (!(adcDec a m c).z && (tensSum a m c).toNat.testBit 3) := rfl

theorem adcDec_v (a m : Byte) (c : Bool) :
    (adcDec a m c).v = (a.msb == m.msb && a.msb != (tensSum a m c).toNat.testBit 3) := by
  have h : (tensSum a m c <<< 4).msb = (tensSum a m c).toNat.testBit 3 := by
    rw [BitVec.msb_shiftLeft]
    rfl
  rw [← h]
  exact msb_signChange a m _

/-- Z is that of the binary sum. -/
theorem adcDec_z (a m : Byte) (c : Bool) : (adcDec a m c).z = (adcBin a m c).z := by
  have h : (adcBin a m c).r = a + m + bitByte c := by
    apply BitVec.eq_of_toNat_eq
    rw [toNat_adcBin_r, BitVec.toNat_add, BitVec.toNat_add, toNat_bitByte]
    omega
  exact congrArg (· == 0) h.symm

theorem toNat_unitsSum (a m : Byte) (c : Bool) : (unitsSum a m c).toNat = a.toNat % 16 + m.toNat % 16 + c.toNat := by
  have hc := c.toNat_lt
  simp only [unitsSum, BitVec.toNat_add, toNat_and_0F, toNat_bitByte]
  omega

section
variable {a m : Byte} (ha : a.toNat % 16 ≤ 9 ∧ a.toNat / 16 ≤ 9) (hm : m.toNat % 16 ≤ 9 ∧ m.toNat / 16 ≤ 9)
include ha hm

theorem toNat_unitsSum_le (c : Bool) : (unitsSum a m c).toNat ≤ 19 := by
  have hc := c.toNat_lt
  rw [toNat_unitsSum]
  omega

theorem toNat_tensSum (c : Bool) : (tensSum a m c).toNat =
    a.toNat / 16 + m.toNat / 16 + if 9 < a.toNat % 16 + m.toNat % 16 + c.toNat then 1 else 0 := by
  simp only [tensSum, lt_correctUp_iff (toNat_unitsSum_le ha hm c), toNat_unitsSum, BitVec.toNat_add, toNat_ushiftRight_four,
    apply_ite BitVec.toNat, BitVec.reduceToNat]
  split <;> omega

theorem toNat_tensSum_le (c : Bool) : (tensSum a m c).toNat ≤ 19 := by
  rw [toNat_tensSum ha hm]
  split <;> omega

theorem isBcd_adcDec (c : Bool) : isBcd (adcDec a m c).r = true := by
  have hunits := toNat_correctUp_mod (toNat_unitsSum_le ha hm c)
  have htens := toNat_correctUp_mod (toNat_tensSum_le ha hm c)
  rw [adcDec_r]
  exact isBcd_joinDigits (by omega) (by omega)

theorem bcdValue_adcDec (c : Bool) : bcdValue (adcDec a m c).r = (bcdValue a + bcdValue m + c.toNat) % 100 := by
  have hc := c.toNat_lt
  rw [adcDec_r, bcdValue_joinDigits, toNat_correctUp_mod (toNat_unitsSum_le ha hm c), toNat_correctUp_mod (toNat_tensSum_le ha hm c),
    toNat_tensSum ha hm, toNat_unitsSum]
  simp only [bcdValue]
  split <;> omega

theorem adcDec_c_eq (c : Bool) : (adcDec a m c).c = decide (100 ≤ bcdValue a + bcdValue m + c.toNat) := by
  have hc := c.toNat_lt
  rw [adcDec_c, decide_eq_decide, lt_correctUp_iff (toNat_tensSum_le ha hm c), toNat_tensSum ha hm]
  simp only [bcdValue]
  split <;> omega

end

/-! ### Subtraction -/

section
variable {v : Byte} {x y : Nat} (hx : x ≤ 9) (hy : y ≤ 10) (hv : v.toNat = (256 + x - y) % 256)
include hx hy hv

theorem msb_digitDifference : v.msb = decide (x < y) := by
  rw [BitVec.msb_eq_decide, decide_eq_decide]
  omega

theorem toNat_correctDown : (correctDown v).toNat = if x < y then 250 + x - y else x - y := by
  simp only [correctDown, msb_digitDifference hx hy hv, decide_eq_true_eq, apply_ite BitVec.toNat, BitVec.toNat_sub, BitVec.reduceToNat]
  split <;> omega

/-- The corrected difference ends in the decimal digit. -/
theorem toNat_correctDown_mod : (correctDown v).toNat % 16 = (10 + x - y) % 10 := by
  rw [toNat_correctDown hx hy hv]
  split <;> omega

/-- The correction keeps the sign, the borrow of the next digit. -/
theorem msb_correctDown : (correctDown v).msb = decide (x < y) := by
  rw [BitVec.msb_eq_decide, decide_eq_decide, toNat_correctDown hx hy hv]
  split <;> omega

end

/-- The difference of the units digits. -/
def unitsDifference (a m : Byte) (c : Bool) : Byte := (a &&& 0x0F) - (m &&& 0x0F) - (1 - bitByte c)

/-- The difference of the tens digits, uncorrected. -/
def tensDifference (a m : Byte) (c : Bool) : Byte := (a >>> 4) - (m >>> 4) - bitByte (correctDown (unitsDifference a m c)).msb

theorem sbcDec_r (a m : Byte) (c : Bool) :
    (sbcDec a m c).r = joinDigits (correctDown (tensDifference a m c)) (correctDown (unitsDifference a m c)) := rfl

theorem toNat_unitsDifference (a m : Byte) (c : Bool) :
    (unitsDifference a m c).toNat = (256 + a.toNat % 16 - (m.toNat % 16 + (1 - c.toNat))) % 256 := by
  have hc := c.toNat_lt
  simp only [unitsDifference, BitVec.toNat_sub, toNat_and_0F, toNat_bitByte, BitVec.reduceToNat]
  omega

section
variable {a m : Byte} (ha : a.toNat % 16 ≤ 9 ∧ a.toNat / 16 ≤ 9) (hm : m.toNat % 16 ≤ 9 ∧ m.toNat / 16 ≤ 9)
include ha hm

theorem toNat_tensDifference (c : Bool) : (tensDifference a m c).toNat =
    (256 + a.toNat / 16 - (m.toNat / 16 + if a.toNat % 16 < m.toNat % 16 + (1 - c.toNat) then 1 else 0)) % 256 := by
  have hborrow := msb_correctDown (by omega) (by omega) (toNat_unitsDifference a m c)
  simp only [tensDifference, hborrow, BitVec.toNat_sub, toNat_ushiftRight_four, toNat_bitByte, Bool.toNat, Bool.cond_decide]
  split <;> omega

theorem sbcDec_units (c : Bool) : (correctDown (unitsDifference a m c)).toNat % 16 =
    (10 + a.toNat % 16 - (m.toNat % 16 + (1 - c.toNat))) % 10 :=
  toNat_correctDown_mod (by omega) (by omega) (toNat_unitsDifference a m c)

theorem sbcDec_tens (c : Bool) : (correctDown (tensDifference a m c)).toNat % 16 =
    (10 + a.toNat / 16 - (m.toNat / 16 + if a.toNat % 16 < m.toNat % 16 + (1 - c.toNat) then 1 else 0)) % 10 :=
  toNat_correctDown_mod (by omega) (by split <;> omega) (toNat_tensDifference ha hm c)

theorem isBcd_sbcDec (c : Bool) : isBcd (sbcDec a m c).r = true := by
  have hunits := sbcDec_units ha hm c
  have htens := sbcDec_tens ha hm c
  rw [sbcDec_r]
  exact isBcd_joinDigits (by omega) (by omega)

theorem bcdValue_sbcDec (c : Bool) :
    (bcdValue (sbcDec a m c).r : Int) = ((bcdValue a : Int) - bcdValue m - (1 - c.toNat)) % 100 := by
  have hc := c.toNat_lt
  rw [sbcDec_r, bcdValue_joinDigits, sbcDec_units ha hm, sbcDec_tens ha hm]
  simp only [bcdValue]
  split <;> omega

end

theorem zext16_borrow (c : Bool) : zext16 (1 - bitByte c) = 1 - zext16 (bitByte c) := by cases c <;> rfl

/-- A result of 0 is not negative. -/
theorem notZero_and_msb (v : Byte) : (!(v == 0) && v.msb) = v.msb := by
  by_cases hv : v = 0
  · rw [hv]
    rfl
  · rw [beq_false_of_ne hv]
    rfl

theorem sbcDec_flags (a m : Byte) (c : Bool) : (sbcDec a m c).n = (sbcBin a m c).n ∧ (sbcDec a m c).v = (sbcBin a m c).v ∧
    (sbcDec a m c).z = (sbcBin a m c).z ∧ (sbcDec a m c).c = (sbcBin a m c).c := by
  simp only [sbcDec, sbcBin, zext16_borrow, notZero_and_msb, and_self]

/-- Settles O46: the result digit by digit, carried or borrowed from the units to the tens. -/
theorem decimalArithmetic : Obligations.DecimalArithmetic := by
  intro a m c hba hbm
  have ha := (isBcd_iff a).mp hba
  have hm := (isBcd_iff m).mp hbm
  have htens := toNat_tensSum ha hm c
  refine ⟨isBcd_adcDec ha hm c, bcdValue_adcDec ha hm c, adcDec_c_eq ha hm c, adcDec_z a m c, ⟨?_, ?_⟩, isBcd_sbcDec ha hm c,
    bcdValue_sbcDec ha hm c, sbcDec_flags a m c⟩
  · rw [← htens]
    exact adcDec_n a m c
  · rw [← htens]
    exact adcDec_v a m c

end Sys2Proof.Machine
end

section
/-!
SUPPORT. The forms of an instruction together: one lemma for its reading forms, one for its storing forms.
-/
namespace Sys2Proof.Machine

/-- Every instruction of the form runs the microprogram of the form's mode, given its operand bytes on the cycles that read them. -/
def MemForm.Runs (ticks : Mode → List Action) : MemForm → Prop
  | .zp make => ∀ z s, exec (make z) s = runReading (make z) (ticks .zp) [none, some z] s
  | .zpx make => ∀ z s, exec (make z) s = runReading (make z) (ticks .zpx) [none, some z] s
  | .zpy make => ∀ z s, exec (make z) s = runReading (make z) (ticks .zpy) [none, some z] s
  | .abs make => ∀ k s, exec (make k) s = runReading (make k) (ticks .abs) [none, some (lo k), some (hi k)] s
  | .abx make => ∀ k s, exec (make k) s = runReading (make k) (ticks .abx) [none, some (lo k), some (hi k)] s
  | .aby make => ∀ k s, exec (make k) s = runReading (make k) (ticks .aby) [none, some (lo k), some (hi k)] s
  | .idx make => ∀ z s, exec (make z) s = runReading (make z) (ticks .idx) [none, some z] s
  | .idy make => ∀ z s, exec (make z) s = runReading (make z) (ticks .idy) [none, some z] s

theorem runsRead_of_runs {s : State} (hb : s.AtBoundary) {op : Action} {effect : Byte → Arch → Arch} (ha : ActsAs op effect)
    {form : MemForm} (hx : form.Runs (readTicks · op)) : RunsRead s effect form := by
  cases form with
  | zp make => exact runsRead_zp hb ha fun z => hx z s
  | zpx make => exact runsRead_zpx hb ha fun z => hx z s
  | zpy make => exact runsRead_zpy hb ha fun z => hx z s
  | abs make => exact runsRead_abs hb ha fun k => hx k s
  | abx make => exact runsRead_abx hb ha fun k => hx k s
  | aby make => exact runsRead_aby hb ha fun k => hx k s
  | idx make => exact runsRead_idx hb ha fun z => hx z s
  | idy make => exact runsRead_idy hb ha fun z => hx z s

theorem runsStore_of_runs {s : State} (hb : s.AtBoundary) {store : State → State} {value : State → Byte} (hd : Stores store value)
    {form : MemForm} (hx : form.Runs (writeTicks · store)) : RunsStore s (value s) form := by
  cases form with
  | zp make => exact runsStore_zp hb hd fun z => hx z s
  | zpx make => exact runsStore_zpx hb hd fun z => hx z s
  | zpy make => exact runsStore_zpy hb hd fun z => hx z s
  | abs make => exact runsStore_abs hb hd fun k => hx k s
  | abx make => exact runsStore_abx hb hd fun k => hx k s
  | aby make => exact runsStore_aby hb hd fun k => hx k s
  | idx make => exact runsStore_idx hb hd fun z => hx z s
  | idy make => exact runsStore_idy hb hd fun z => hx z s

/-- The reading forms of an instruction complete with the effect of the operation that their microprograms share. -/
theorem runsRead_forms {s : State} (hb : s.AtBoundary) {op : Action} {effect : Byte → Arch → Arch} (ha : ActsAs op effect)
    {forms : List MemForm} (hx : forms.Forall (MemForm.Runs (readTicks · op))) : ∀ form ∈ forms, RunsRead s effect form :=
  fun _ hmem => runsRead_of_runs hb ha (List.forall_iff_forall_mem.mp hx _ hmem)

/-- The storing forms of an instruction complete with the byte of the store action that their microprograms share. -/
theorem runsStore_forms {s : State} (hb : s.AtBoundary) {store : State → State} {value : State → Byte} (hd : Stores store value)
    {forms : List MemForm} (hx : forms.Forall (MemForm.Runs (writeTicks · store))) : ∀ form ∈ forms, RunsStore s (value s) form :=
  fun _ hmem => runsStore_of_runs hb hd (List.forall_iff_forall_mem.mp hx _ hmem)

end Sys2Proof.Machine
end

section
/-!
Loads, stores, transfers and flag instructions: O17 to O20.
-/
namespace Sys2Proof.Machine

/-! ### Loads -/

/-- Settles O17: the microprograms of a load share one operation, which loads its register, in every mode. -/
theorem loadInstructions : Obligations.LoadInstructions := by
  intro s hb
  refine ⟨⟨?ldaImm, ?lda⟩, ⟨?ldxImm, ?ldx⟩, ?ldyImm, ?ldy⟩
  case ldaImm => exact runsImmediate hb actsAs_ldaOp fun _ => rfl
  case lda =>
    exact runsRead_forms hb actsAs_ldaOp
      ⟨fun _ _ => rfl, fun _ _ => rfl, fun _ _ => rfl, fun _ _ => rfl, fun _ _ => rfl, fun _ _ => rfl, fun _ _ => rfl⟩
  case ldxImm => exact runsImmediate hb actsAs_ldxOp fun _ => rfl
  case ldx => exact runsRead_forms hb actsAs_ldxOp ⟨fun _ _ => rfl, fun _ _ => rfl, fun _ _ => rfl, fun _ _ => rfl⟩
  case ldyImm => exact runsImmediate hb actsAs_ldyOp fun _ => rfl
  case ldy => exact runsRead_forms hb actsAs_ldyOp ⟨fun _ _ => rfl, fun _ _ => rfl, fun _ _ => rfl, fun _ _ => rfl⟩

/-! ### Stores -/

theorem stores_staStore : Stores staStore State.a :=
  ⟨fun _ _ n _ => ⟨n, rfl⟩, fun _ _ _ _ _ _ _ => ⟨rfl, rfl, rfl, rfl, rfl, rfl, rfl⟩⟩

theorem stores_stxStore : Stores stxStore State.x :=
  ⟨fun _ _ n _ => ⟨n, rfl⟩, fun _ _ _ _ _ _ _ => ⟨rfl, rfl, rfl, rfl, rfl, rfl, rfl⟩⟩

theorem stores_styStore : Stores styStore State.y :=
  ⟨fun _ _ n _ => ⟨n, rfl⟩, fun _ _ _ _ _ _ _ => ⟨rfl, rfl, rfl, rfl, rfl, rfl, rfl⟩⟩

/-- Settles O18: the microprograms of a store share one store action, which drives its register, in every mode. -/
theorem storeInstructions : Obligations.StoreInstructions := by
  intro s hb
  refine ⟨?sta, ?stx, ?sty⟩
  case sta =>
    exact runsStore_forms hb stores_staStore
      ⟨fun _ _ => rfl, fun _ _ => rfl, fun _ _ => rfl, fun _ _ => rfl, fun _ _ => rfl, fun _ _ => rfl, fun _ _ => rfl⟩
  case stx => exact runsStore_forms hb stores_stxStore ⟨fun _ _ => rfl, fun _ _ => rfl, fun _ _ => rfl⟩
  case sty => exact runsStore_forms hb stores_styStore ⟨fun _ _ => rfl, fun _ _ => rfl, fun _ _ => rfl⟩

/-! ### Transfers -/

/-- Settles O19: the operation of each transfer by its effect. -/
theorem transferInstructions : Obligations.TransferInstructions := by
  intro s hb
  refine ⟨⟨rfl, ?tax⟩, ⟨rfl, ?tay⟩, ⟨rfl, ?txa⟩, ⟨rfl, ?tya⟩, ⟨rfl, ?tsx⟩, rfl, ?txs⟩
  case tax => exact runsImplied hb actsAs_taxOp rfl
  case tay => exact runsImplied hb actsAs_tayOp rfl
  case txa => exact runsImplied hb actsAs_txaOp rfl
  case tya => exact runsImplied hb actsAs_tyaOp rfl
  case tsx => exact runsImplied hb actsAs_tsxOp rfl
  case txs => exact runsImplied hb actsAs_txsOp rfl

/-! ### Flag instructions -/

/-- O20's form of a flag instruction's result: P by its flags. -/
theorem next_of_writesFlag {i : Instr} {s : State} {f : Flag} {v : Bool}
    (h : RunsImplied s (fun r => { r with p := setFlag r.p f v }) i) :
    ∃ t, exec i s = .next t ∧ t.AtBoundary ∧ t.arch = { s.arch.skip 1 with p := t.p } ∧
      ∀ g, t.flag g = if g = f then v else s.flag g := by
  obtain ⟨t, hx, harch, hb⟩ := h
  have hp : t.p = setFlag s.p f v := congrArg Arch.p harch
  refine ⟨t, hx, hb, harch.trans ?_, fun g => ?_⟩
  · rw [hp]
    rfl
  · simp only [State.flag, hp, getFlag_setFlag, eq_comm]

/-- Settles O20: the operation of each instruction writes its one flag. -/
theorem flagInstructions : Obligations.FlagInstructions := by
  intro s hb
  simp only [List.forall_mem_cons]
  refine ⟨⟨rfl, ?clc⟩, ⟨rfl, ?sec⟩, ⟨rfl, ?cli⟩, ⟨rfl, ?sei⟩, ⟨rfl, ?cld⟩, ⟨rfl, ?sed⟩, ⟨rfl, ?clv⟩, List.forall_mem_nil _⟩
  case clc => exact next_of_writesFlag (runsImplied hb actsAs_clcOp rfl)
  case sec => exact next_of_writesFlag (runsImplied hb actsAs_secOp rfl)
  case cli => exact next_of_writesFlag (runsImplied hb actsAs_cliOp rfl)
  case sei => exact next_of_writesFlag (runsImplied hb actsAs_seiOp rfl)
  case cld => exact next_of_writesFlag (runsImplied hb actsAs_cldOp rfl)
  case sed => exact next_of_writesFlag (runsImplied hb actsAs_sedOp rfl)
  case clv => exact next_of_writesFlag (runsImplied hb actsAs_clvOp rfl)

end Sys2Proof.Machine
end

section
/-!
SUPPORT. The forms of a read-modify-write instruction together.
-/
namespace Sys2Proof.Machine

theorem runsModify_zpy {s : State} (hb : s.AtBoundary) (hw : s.mem.wf) {f : Byte → State → Byte × State}
    {effect : Byte → Arch → Byte × Arch} (hf : ModifiesAs f effect) {make : Byte → Instr}
    (hx : ∀ z, exec (make z) s = runReading (make z) (modifyTicks .zpy f) [none, some z] s) : RunsModify s effect (.zpy make) :=
  fun z => completes_modify (hx z) hf hb hw (by simp [addressing]) (by simp [addressing]) (addresses_zpy hb z .readWrite)

theorem runsModify_of_runs {s : State} (hb : s.AtBoundary) (hw : s.mem.wf) {f : Byte → State → Byte × State}
    {effect : Byte → Arch → Byte × Arch} (hf : ModifiesAs f effect) {form : MemForm} (hx : form.Runs (modifyTicks · f)) :
    RunsModify s effect form := by
  cases form with
  | zp make => exact runsModify_zp hb hw hf fun z => hx z s
  | zpx make => exact runsModify_zpx hb hw hf fun z => hx z s
  | zpy make => exact runsModify_zpy hb hw hf fun z => hx z s
  | abs make => exact runsModify_abs hb hw hf fun k => hx k s
  | abx make => exact runsModify_abx hb hw hf fun k => hx k s
  | aby make => exact runsModify_aby hb hw hf fun k => hx k s
  | idx make => exact runsModify_idx hb hw hf fun z => hx z s
  | idy make => exact runsModify_idy hb hw hf fun z => hx z s

/-- The modifying forms of an instruction complete with the effect of the final step that their microprograms share. -/
theorem runsModify_forms {s : State} (hb : s.AtBoundary) (hw : s.mem.wf) {f : Byte → State → Byte × State}
    {effect : Byte → Arch → Byte × Arch} (hf : ModifiesAs f effect) {forms : List MemForm}
    (hx : forms.Forall (MemForm.Runs (modifyTicks · f))) : ∀ form ∈ forms, RunsModify s effect form :=
  fun _ hmem => runsModify_of_runs hb hw hf (List.forall_iff_forall_mem.mp hx _ hmem)

end Sys2Proof.Machine
end

section
/-!
Arithmetic, logic and compares on A, X and Y: O21 to O25.
-/
namespace Sys2Proof.Machine

/-! ### Logic -/

/-- Settles O21: the microprograms of an instruction share one operation, which loads A with the combined byte, in every mode. -/
theorem logicInstructions : Obligations.LogicInstructions := by
  intro s hb
  refine ⟨⟨?oraImm, ?ora⟩, ⟨?andImm, ?and⟩, ?eorImm, ?eor⟩
  case oraImm => exact runsImmediate hb actsAs_oraOp fun _ => rfl
  case ora =>
    exact runsRead_forms hb actsAs_oraOp
      ⟨fun _ _ => rfl, fun _ _ => rfl, fun _ _ => rfl, fun _ _ => rfl, fun _ _ => rfl, fun _ _ => rfl, fun _ _ => rfl⟩
  case andImm => exact runsImmediate hb actsAs_andOp fun _ => rfl
  case and =>
    exact runsRead_forms hb actsAs_andOp
      ⟨fun _ _ => rfl, fun _ _ => rfl, fun _ _ => rfl, fun _ _ => rfl, fun _ _ => rfl, fun _ _ => rfl, fun _ _ => rfl⟩
  case eorImm => exact runsImmediate hb actsAs_eorOp fun _ => rfl
  case eor =>
    exact runsRead_forms hb actsAs_eorOp
      ⟨fun _ _ => rfl, fun _ _ => rfl, fun _ _ => rfl, fun _ _ => rfl, fun _ _ => rfl, fun _ _ => rfl, fun _ _ => rfl⟩

/-! ### Addition and subtraction -/

/-- Settles O22: every form runs the one operation of ADC, whose result is binary or decimal by `adcResult_eq`. -/
theorem additionInstruction : Obligations.AdditionInstruction := by
  intro s hb effect
  have ha : ActsAs adcOp effect := by simpa only [adcResult_eq] using actsAs_adcOp
  refine ⟨?imm, ?mem⟩
  case imm => exact runsImmediate hb ha fun _ => rfl
  case mem =>
    exact runsRead_forms hb ha
      ⟨fun _ _ => rfl, fun _ _ => rfl, fun _ _ => rfl, fun _ _ => rfl, fun _ _ => rfl, fun _ _ => rfl, fun _ _ => rfl⟩

/-- Settles O23: every form, 0xEB among them, runs the one operation of SBC, whose result is binary or decimal by `sbcResult_eq`. -/
theorem subtractionInstruction : Obligations.SubtractionInstruction := by
  intro s hb effect
  have ha : ActsAs sbcOp effect := by simpa only [sbcResult_eq] using actsAs_sbcOp
  refine ⟨?imm, ?immEB, ?mem⟩
  case imm => exact runsImmediate hb ha fun _ => rfl
  case immEB => exact runsImmediate hb ha fun _ => rfl
  case mem =>
    exact runsRead_forms hb ha
      ⟨fun _ _ => rfl, fun _ _ => rfl, fun _ _ => rfl, fun _ _ => rfl, fun _ _ => rfl, fun _ _ => rfl, fun _ _ => rfl⟩

/-! ### Compares -/

/-- Settles O24: the microprograms of an instruction share one operation, which writes P alone, in every mode. -/
theorem compareInstructions : Obligations.CompareInstructions := by
  intro s hb
  refine ⟨⟨?cmpImm, ?cmp⟩, ⟨?cpxImm, ?cpx⟩, ⟨?cpyImm, ?cpy⟩, ?bit⟩
  case cmpImm => exact runsImmediate hb actsAs_cmpOp fun _ => rfl
  case cmp =>
    exact runsRead_forms hb actsAs_cmpOp
      ⟨fun _ _ => rfl, fun _ _ => rfl, fun _ _ => rfl, fun _ _ => rfl, fun _ _ => rfl, fun _ _ => rfl, fun _ _ => rfl⟩
  case cpxImm => exact runsImmediate hb actsAs_cpxOp fun _ => rfl
  case cpx => exact runsRead_forms hb actsAs_cpxOp ⟨fun _ _ => rfl, fun _ _ => rfl⟩
  case cpyImm => exact runsImmediate hb actsAs_cpyOp fun _ => rfl
  case cpy => exact runsRead_forms hb actsAs_cpyOp ⟨fun _ _ => rfl, fun _ _ => rfl⟩
  case bit => exact runsRead_forms hb actsAs_bitOp ⟨fun _ _ => rfl, fun _ _ => rfl⟩

/-! ### Increments and decrements of a register -/

/-- Settles O25: the operation of each instruction by its effect. -/
theorem registerIncrements : Obligations.RegisterIncrements := by
  intro s hb
  refine ⟨⟨rfl, ?inx⟩, ⟨rfl, ?iny⟩, ⟨rfl, ?dex⟩, rfl, ?dey⟩
  case inx => exact runsImplied hb actsAs_inxOp rfl
  case iny => exact runsImplied hb actsAs_inyOp rfl
  case dex => exact runsImplied hb actsAs_dexOp rfl
  case dey => exact runsImplied hb actsAs_deyOp rfl

end Sys2Proof.Machine
end

section
/-!
Increments, shifts and rotates of a byte of memory, and of A: O26 to O28.
-/
namespace Sys2Proof.Machine

/-- Settles O26: the microprograms of an instruction share one final step, whatever the mode. -/
theorem memoryIncrements : Obligations.MemoryIncrements := by
  intro s hb hw
  refine ⟨?inc, ?dec⟩
  case inc =>
    exact runsModify_forms hb hw modifiesAs_incStep ⟨fun _ _ => rfl, fun _ _ => rfl, fun _ _ => rfl, fun _ _ => rfl⟩
  case dec =>
    exact runsModify_forms hb hw modifiesAs_decStep ⟨fun _ _ => rfl, fun _ _ => rfl, fun _ _ => rfl, fun _ _ => rfl⟩

/-- Settles O27: the microprograms of an instruction share one final step, whatever the mode. -/
theorem memoryShifts : Obligations.MemoryShifts := by
  intro s hb hw
  refine ⟨?asl, ?lsr, ?rol, ?ror⟩
  case asl =>
    exact runsModify_forms hb hw modifiesAs_aslStep ⟨fun _ _ => rfl, fun _ _ => rfl, fun _ _ => rfl, fun _ _ => rfl⟩
  case lsr =>
    exact runsModify_forms hb hw modifiesAs_lsrStep ⟨fun _ _ => rfl, fun _ _ => rfl, fun _ _ => rfl, fun _ _ => rfl⟩
  case rol =>
    exact runsModify_forms hb hw modifiesAs_rolStep ⟨fun _ _ => rfl, fun _ _ => rfl, fun _ _ => rfl, fun _ _ => rfl⟩
  case ror =>
    exact runsModify_forms hb hw modifiesAs_rorStep ⟨fun _ _ => rfl, fun _ _ => rfl, fun _ _ => rfl, fun _ _ => rfl⟩

/-- Settles O28: the operation of each instruction by its effect. -/
theorem accumulatorShifts : Obligations.AccumulatorShifts := by
  intro s hb
  refine ⟨?asl, ?lsr, ?rol, ?ror⟩
  case asl => exact runsImplied hb actsAs_aslAOp rfl
  case lsr => exact runsImplied hb actsAs_lsrAOp rfl
  case rol => exact runsImplied hb actsAs_rolAOp rfl
  case ror => exact runsImplied hb actsAs_rorAOp rfl

end Sys2Proof.Machine
end

section
/-!
Pushes and pulls: O29, O30.
-/
namespace Sys2Proof.Machine

/-- Settles O29: the two instructions share one microprogram, which pushes the byte that it is given. -/
theorem pushInstructions : Obligations.PushInstructions := by
  intro s hb
  refine ⟨?pha, ?php⟩
  case pha => exact completes_push rfl (fun _ hu => congrArg Arch.a hu) (fun _ _ _ => rfl) hb
  case php => exact completes_push rfl (fun _ hu => congrArg (pushedStatus ·.p) hu) (fun _ _ _ => rfl) hb

theorem actsAs_plaOp : ActsAs plaOp Arch.loadA :=
  ⟨fun _ _ n _ => ⟨n, rfl⟩, fun _ _ => rfl, fun _ _ => rfl, fun _ _ => rfl⟩

/-- Settles O30: the two instructions share one microprogram, which ends with the operation of each on the pulled byte. -/
theorem pullInstructions : Obligations.PullInstructions := by
  intro s hb v
  refine ⟨?pla, ?plp⟩
  case pla => exact completes_pull rfl actsAs_plaOp hb
  case plp => exact completes_plp hb

end Sys2Proof.Machine
end

section
/-!
SUPPORT. How an instruction ends that goes elsewhere than to the next one.
-/
namespace Sys2Proof.Machine

theorem State.AtBoundary.rw_eq {s : State} (h : s.AtBoundary) : s.rw = false := by
  obtain ⟨-, hrw, -, -⟩ := h
  exact hrw

theorem State.AtBoundary.brk_eq {s : State} (h : s.AtBoundary) : s.brk = BrkFlags.empty := by
  obtain ⟨-, -, -, hbrk⟩ := h
  exact hbrk

/-- An instruction completes with the state in which its quiet run sets up a fetch. -/
theorem completes_fetching {i : Instr} {ticks : List Action} {operand : List (Option Byte)} {s : State} {r : Arch}
    (hx : exec i s = runReading i ticks operand s) (hl : ∀ act ∈ ticks, EnvBlind act)
    (hq : ∃ t : State, quietInstr i ticks operand s = t.fetch.commit ∧ t.arch = r ∧ t.rw = false ∧ t.brk = BrkFlags.empty) :
    Completes i s r := by
  obtain ⟨t, hq, harch, hrw, hbrk⟩ := hq
  exact completes_of_quiet hx hl (by rw [hq, fetch_commit_arch hrw, harch]) (by rw [hq]; exact fetch_commit_boundary hrw hbrk)

theorem blind_handlerTick : EnvBlind handlerTick := fun _ _ n _ => ⟨n, rfl⟩

/-- The tick that goes to the word of which AD holds the low byte and the bus the high one, as jumps, JSR, RTI and interrupts do. -/
theorem quietTicks_handlerTick {ticks : List Action} {operand : List (Option Byte)} {n k : Nat} {s : State} {op : Byte}
    {pc ad addr : Word} {d h : Byte} (hk : k < 8) (ha : ticks[k]? = some handlerTick)
    (hh : (operand[k]?.getD none).getD (s.readByte addr) = h) :
    quietTicks ticks operand (n + 1) (s.during op k pc ad addr d) = (s.during op (k + 1) (highOver h ad) ad addr h).fetch.commit := by
  rw [quietTicks_during hk ha, hh]
  exact quietTicks_done rfl

end Sys2Proof.Machine
end

section
/-!
Jumps, subroutines, BRK and RTI: O31 to O35.
-/
namespace Sys2Proof.Machine

/-! ### Jumps -/

theorem blind_ticksJmpAbs : ∀ act ∈ ticksJmpAbs, EnvBlind act :=
  List.forall_mem_append.mpr ⟨blind_addressing .jmp .read, List.forall_mem_singleton.mpr blind_handlerTick⟩

theorem blind_ticksJmpInd : ∀ act ∈ ticksJmpInd, EnvBlind act := by
  refine List.forall_mem_append.mpr ⟨blind_addressing .jmp .read, ?_⟩
  simp only [List.forall_mem_cons, List.not_mem_nil, false_implies, implies_true, and_true]
  exact ⟨fun _ _ n _ => ⟨n, rfl⟩, fun _ _ n _ => ⟨n, rfl⟩, blind_handlerTick⟩

/-- The operand ticks of a jump leave the low byte of its operand in AD; the bus gives the next tick the high one. -/
theorem quietInstr_jmp {i : Instr} {s : State} (hb : s.AtBoundary) (rest : List Action) (k : Word) :
    quietInstr i (addressing .jmp .read ++ rest) [none, some (lo k), some (hi k)] s =
      quietTicks (addressing .jmp .read ++ rest) [none, some (lo k), some (hi k)] rest.length
        (s.during i.opcode 2 (s.pc + 1 + 1 + 1) (zext16 (lo k)) (s.pc + 1 + 1) (lo k)) := by
  rw [addressing, List.cons_append, List.cons_append, List.nil_append, quietInstr_start hb.rw_eq, List.length_cons, operandTick_during,
    quietTicks_during (by decide) rfl, secondOperandTick_during]
  rfl

theorem completes_jmpAbs {s : State} (hb : s.AtBoundary) (k : Word) : Completes (.jmpAbs k) s { s.arch with pc := k } := by
  have hk : highOver (hi k) (zext16 (lo k)) = k := mkWord_hi_lo k
  refine completes_fetching rfl blind_ticksJmpAbs ⟨s.during 0x4C 3 k (zext16 (lo k)) (s.pc + 1 + 1) (hi k), ?_, rfl, rfl, hb.brk_eq⟩
  refine (quietInstr_jmp hb _ k).trans ((quietTicks_handlerTick (k := 2) (by decide) rfl rfl).trans ?_)
  show (s.during _ _ (highOver (hi k) (zext16 (lo k))) _ _ _).fetch.commit = _
  rw [hk]
  rfl

/-- The high byte of the word that a pointer names is at the next address of the pointer's page (20_memory.md R56 (c)). -/
theorem completes_jmpInd {s : State} (hb : s.AtBoundary) (k : Word) : Completes (.jmpInd k) s
    { s.arch with pc := mkWord (s.readByte (pageAdd k 1)) (s.readByte k) } := by
  have hk : zext16 (lo k) ||| (zext16 (hi k) <<< 8) = k := by rw [lowHigh, mkWord_hi_lo]
  refine completes_fetching rfl blind_ticksJmpInd
    ⟨s.during 0x6C 5 (mkWord (s.readByte (pageAdd k 1)) (s.readByte k)) (zext16 (s.readByte k)) (pageAdd k 1)
      (s.readByte (pageAdd k 1)), ?_, rfl, rfl, hb.brk_eq⟩
  refine (quietInstr_jmp hb _ k).trans ((quietTicks_during (k := 2) (by decide) rfl).trans ?_)
  show quietTicks _ _ 2 (s.during _ 3 _ (zext16 (lo k) ||| (zext16 (hi k) <<< 8)) (zext16 (lo k) ||| (zext16 (hi k) <<< 8)) _) = _
  rw [hk, quietTicks_during (by decide) rfl]
  exact quietTicks_handlerTick (ticks := ticksJmpInd) (s := s) (k := 4) (addr := pageAdd k 1) (by decide) rfl rfl

/-- Settles O31: each jump leaves in PC the word it has put together, and nothing else. -/
theorem jumpInstructions : Obligations.JumpInstructions :=
  fun _ k hb => ⟨completes_jmpAbs hb k, completes_jmpInd hb k⟩

/-! ### JSR -/

theorem toNat_stackAddr (sp : Byte) : (stackAddr sp).toNat = 256 + sp.toNat := toNat_mkWord 1 sp

/-- Two pushes in a row store at two addresses. -/
theorem stackAddr_pred_ne (sp : Byte) : stackAddr (sp - 1) ≠ stackAddr sp := by
  intro h
  have hsame := congrArg BitVec.toNat h
  rw [toNat_stackAddr, toNat_stackAddr] at hsame
  bv_omega

/-- The high byte of JSR's target: the operand's, unless a push has landed on it (44_control_stack.md R236). -/
def jsrHigh (k : Word) (s : State) : Byte :=
  if s.pc + 2 = stackAddr s.sp then hi (s.pc + 2) else if s.pc + 2 = stackAddr (s.sp - 1) then lo (s.pc + 2) else hi k

/-- The state after JSR's pushes. -/
def State.called (s : State) : State := (s.pushed (hi (s.pc + 2))).pushed (lo (s.pc + 2))

theorem jsrHighRead_getD {s : State} (hw : s.mem.wf) (k : Word) :
    (jsrHighRead k s).getD (s.called.readByte (s.pc + 2)) = jsrHigh k s := by
  have hread : s.called.readByte (s.pc + 2) = ((s.mem.write (stackAddr s.sp).toNat (hi (s.pc + 2))).write
    (stackAddr (s.sp - 1)).toNat (lo (s.pc + 2))).read (s.pc + 2).toNat := rfl
  rw [hread, jsrHighRead, jsrHigh]
  by_cases hfirst : s.pc + 2 = stackAddr s.sp
  · have hsecond : s.pc + 2 ≠ stackAddr (s.sp - 1) := hfirst ▸ (stackAddr_pred_ne s.sp).symm
    rw [if_pos (.inl hfirst), if_pos hfirst, Option.getD_none, Memory.read_write_word_ne _ _ hsecond, ← hfirst,
      Memory.read_write_same hw]
  · rw [if_neg hfirst]
    by_cases hsecond : s.pc + 2 = stackAddr (s.sp - 1)
    · rw [if_pos (.inr hsecond), if_pos hsecond, Option.getD_none, ← hsecond, Memory.read_write_same (Memory.wf_write_word hw _ _)]
    · rw [if_neg (not_or.mpr ⟨hfirst, hsecond⟩), if_neg hsecond, Option.getD_some]

/-- Settles O32: JSR reads the high byte of its target after its pushes, where they may have landed. -/
theorem subroutineCall : Obligations.SubroutineCall := by
  intro s k hb hw
  refine completes_fetching (operand := jsrReads k s) rfl blind_ticksJsr
    ⟨s.called.during 0x20 6 (mkWord (jsrHigh k s) (lo k)) (zext16 (lo k)) (s.pc + 2) (jsrHigh k s), ?_, rfl, rfl, hb.brk_eq⟩
  rw [ticksJsr, addressing, List.cons_append, List.nil_append, quietInstr_start hb.rw_eq, operandTick_during, pc_two]
  refine (quietTicks_during (k := 1) (by decide) rfl).trans ?_
  show quietTicks _ _ 4 (s.during _ 2 (s.pc + 2) (zext16 (lo k)) (stackAddr s.sp) _) = _
  rw [quietTicks_during (by decide) rfl, push_during, quietTicks_afterWrite (by decide) rfl, push_during,
    quietTicks_afterWrite (by decide) rfl]
  exact quietTicks_handlerTick (s := s.called) (operand := jsrReads k s) (k := 5) (by decide) rfl (jsrHighRead_getD hw k)

/-! ### RTS, RTI and BRK -/

theorem sp_add_two (sp : Byte) : sp + 1 + 1 = sp + 2 := by rw [BitVec.add_assoc]; rfl

theorem sp_add_three (sp : Byte) : sp + 1 + 1 + 1 = sp + 3 := by rw [sp_add_two, BitVec.add_assoc]; rfl

theorem sp_sub_two (sp : Byte) : sp - 1 - 1 = sp - 2 := by rw [sub_sub]; rfl

theorem sp_sub_three (sp : Byte) : sp - 1 - 1 - 1 = sp - 3 := by rw [sp_sub_two, sub_sub]; rfl

theorem blind_ticksRts : ∀ act ∈ ticksRts, EnvBlind act := by
  refine List.forall_mem_append.mpr ⟨blind_addressing .none .none, ?_⟩
  simp only [List.forall_mem_cons, List.not_mem_nil, false_implies, implies_true, and_true]
  exact ⟨fun _ _ n _ => ⟨n, rfl⟩, fun _ _ n _ => ⟨n, rfl⟩, fun _ _ n _ => ⟨n, rfl⟩, fun _ _ n _ => ⟨n, rfl⟩, blind_fetchTick⟩

/-- The word that RTS pulls. -/
def pulledWord (s : State) : Word := mkWord (s.readByte (stackAddr (s.sp + 1 + 1))) (s.readByte (stackAddr (s.sp + 1)))

theorem completes_rts {s : State} (hb : s.AtBoundary) :
    Completes .rts s { s.arch with sp := s.sp + 1 + 1, pc := pulledWord s + 1 } := by
  refine completes_fetching rfl blind_ticksRts
    ⟨State.during { s with sp := s.sp + 1 + 1 } 0x60 6 (pulledWord s + 1) (zext16 (s.readByte (stackAddr (s.sp + 1)))) (pulledWord s)
      (s.readByte (pulledWord s)), ?_, rfl, rfl, hb.brk_eq⟩
  rw [ticksRts, addressing, List.cons_append, List.nil_append, quietInstr_start hb.rw_eq]
  show quietTicks _ _ 5 (s.during _ 1 (s.pc + 1) s.ad (s.pc + 1) _) = _
  rw [quietTicks_during (by decide) rfl, stepStack_during, quietTicks_during (by decide) rfl, stepStack_during,
    quietTicks_during (by decide) rfl]
  show quietTicks _ _ 2 (State.during { s with sp := s.sp + 1 + 1 } _ 4 _ (zext16 (s.readByte (stackAddr (s.sp + 1))))
    (stackAddr (s.sp + 1 + 1)) _) = _
  rw [quietTicks_during (by decide) rfl]
  show quietTicks _ _ 1 (State.during { s with sp := s.sp + 1 + 1 } _ 5 (pulledWord s + 1) _ (pulledWord s) _) = _
  rw [quietTicks_during (act := fetchTick) (by decide) rfl]
  rfl

/-- Settles O33: RTS pulls two bytes, and the tick that reads at their word steps PC past it. -/
theorem subroutineReturn : Obligations.SubroutineReturn := by
  intro s hb
  rw [← sp_add_two]
  exact completes_rts hb

/-- Settles O34: RTI pulls three bytes, S stepping by 1 for each. -/
theorem interruptReturn : Obligations.InterruptReturn := by
  intro s hb
  rw [← sp_add_three, ← sp_add_two]
  exact completes_rti hb

/-- Settles O35: BRK is the interrupt sequence on the empty set, which pushes PC past the padding byte. -/
theorem softwareInterrupt : Obligations.SoftwareInterrupt := by
  intro s hb
  rw [← sp_sub_three, ← sp_sub_two, ← pc_two]
  exact completes_brk hb

end Sys2Proof.Machine
end

section
/-!
SUPPORT. Branches: the eight instructions share one microprogram, each with its own condition.
-/
namespace Sys2Proof.Machine

/-! ### The ticks of a branch -/

/-- The flag has the value branched on. -/
def flagIs (f : Flag) (v : Bool) (s : State) : Bool := bif v then s.flag f else !s.flag f

theorem flagIs_iff (f : Flag) (v : Bool) (s : State) : flagIs f v s = true ↔ s.flag f = v := by cases v <;> simp [flagIs]

/-- T1 of a branch: the target; not taken, the fetch. -/
def branchTargetTick (cond : State → Bool) : Action := fun c s =>
  let s := { s.readAtPc with ad := s.pc + sext16 c.dbus }
  if cond s then s else s.fetch

/-- T2 of a branch: in the page of the next instruction, the fetch at the target. -/
def branchPageTick : Action := fun _ s =>
  let s := { s with addr := (s.pc &&& 0xFF00) ||| (s.ad &&& 0x00FF) }
  if s.ad &&& 0xFF00 = s.pc &&& 0xFF00 then { s with pc := s.ad, intr := s.intr.unshift }.fetch else s

/-- T3 of a branch: the fetch at the target in another page. -/
def branchCrossTick : Action := fun _ s => { s with pc := s.ad }.fetch

theorem branchTicks_eq (cond : State → Bool) :
    branchTicks cond = [operandTick, branchTargetTick cond, branchPageTick, branchCrossTick] := rfl

/-- Two addresses are in one page where their high bytes are the same. -/
theorem samePage_iff (j k : Word) : samePage j k = true ↔ j &&& 0xFF00 = k &&& 0xFF00 := by
  have hpage : ∀ w : Word, (w &&& 0xFF00).toNat = 256 * (hi w).toNat := by
    intro w
    have hw : w &&& (0xFF00 : Word) = w >>> 8 <<< 8 := by
      rw [BitVec.shiftLeft_ushiftRight]
      rfl
    have hlt := w.isLt
    rw [hw, toNat_hi, BitVec.toNat_shiftLeft, BitVec.toNat_ushiftRight, Nat.shiftRight_eq_div_pow, Nat.shiftLeft_eq]
    omega
  rw [samePage, beq_iff_eq, ← BitVec.toNat_inj, ← BitVec.toNat_inj, hpage, hpage]
  omega

section
variable (f : Flag) (v : Bool) (c : Seen) (s : State)

theorem branchTargetTick_of_taken (h : s.flag f = v) :
    branchTargetTick (flagIs f v) c s = { s with addr := s.pc, ad := s.pc + sext16 c.dbus } :=
  if_pos ((flagIs_iff f v _).mpr h)

theorem branchTargetTick_of_not_taken (h : s.flag f ≠ v) :
    branchTargetTick (flagIs f v) c s = { s with ad := s.pc + sext16 c.dbus }.fetch :=
  if_neg (mt (flagIs_iff f v _).mp h)

theorem branchPageTick_of_samePage (h : samePage s.ad s.pc = true) :
    branchPageTick c s = { s with pc := s.ad, intr := s.intr.unshift }.fetch :=
  if_pos ((samePage_iff _ _).mp h)

theorem branchPageTick_of_crosses (h : samePage s.ad s.pc = false) :
    branchPageTick c s = { s with addr := (s.pc &&& 0xFF00) ||| (s.ad &&& 0x00FF) } :=
  if_neg (mt (samePage_iff _ _).mpr (Bool.eq_false_iff.mp h))

end

theorem blind_branchTargetTick (f : Flag) (v : Bool) : EnvBlind (branchTargetTick (flagIs f v)) := by
  intro c s n ls
  refine ⟨n, ?_⟩
  by_cases h : s.flag f = v
  · rw [branchTargetTick_of_taken f v _ _ h, branchTargetTick_of_taken f v _ _ (by exact h)]
    rfl
  · rw [branchTargetTick_of_not_taken f v _ _ h, branchTargetTick_of_not_taken f v _ _ (by exact h)]
    rfl

theorem blind_branchPageTick : EnvBlind branchPageTick := by
  intro c s n ls
  cases h : samePage s.ad s.pc with
  | true =>
    rw [branchPageTick_of_samePage _ _ h, branchPageTick_of_samePage _ _ (by exact h)]
    exact ⟨n.unshift, rfl⟩
  | false =>
    rw [branchPageTick_of_crosses _ _ h, branchPageTick_of_crosses _ _ (by exact h)]
    exact ⟨n, rfl⟩

theorem blind_branchTicks (f : Flag) (v : Bool) : ∀ act ∈ branchTicks (flagIs f v), EnvBlind act := by
  simp only [branchTicks_eq, List.forall_mem_cons, List.not_mem_nil, false_implies, implies_true, and_true]
  exact ⟨fun _ _ n _ => ⟨n, rfl⟩, blind_branchTargetTick f v, blind_branchPageTick, fun _ _ n _ => ⟨n, rfl⟩⟩

/-! ### The eight branches -/

/-- The instruction is the branch by this offset where the flag has this value. -/
def IsBranch (i : Instr) (f : Flag) (v : Bool) (o : Int) : Prop :=
  ∀ s, exec i s = runReading i (branchTicks (flagIs f v)) [none, some (offsetByte o)] s

/-- The branches by an offset, each with its flag and the value branched on (44_control_stack.md R242-R249). -/
def branches (o : Int) : List (Instr × Flag × Bool) :=
  [(.bpl o, .n, false), (.bmi o, .n, true), (.bvc o, .v, false), (.bvs o, .v, true), (.bcc o, .c, false), (.bcs o, .c, true),
    (.bne o, .z, false), (.beq o, .z, true)]

theorem isBranch_of_mem {o : Int} : ∀ q ∈ branches o, IsBranch q.1 q.2.1 q.2.2 o := by
  simp only [branches, List.forall_mem_cons, List.not_mem_nil, false_implies, implies_true, and_true]
  exact ⟨fun _ => rfl, fun _ => rfl, fun _ => rfl, fun _ => rfl, fun _ => rfl, fun _ => rfl, fun _ => rfl, fun _ => rfl⟩

end Sys2Proof.Machine
end

section
/-!
Branches and NOPs: O36, O37.
-/
namespace Sys2Proof.Machine

/-! ### Branches -/

theorem branchTarget_eq {o : Int} (h : offsetFits o = true) (s : State) : branchTarget o s = s.pc + 2 + BitVec.ofInt 16 o := by
  have htarget : branchTarget o s = s.pc + 2 + BitVec.ofInt 16 (offsetByte o).toInt := rfl
  rw [htarget, toInt_offsetByte h]

theorem completes_branch {i : Instr} {f : Flag} {v : Bool} {o : Int} (hi : IsBranch i f v o) {s : State} (hb : s.AtBoundary) :
    Completes i s { s.arch with pc := if s.flag f = v then branchTarget o s else s.pc + 2 } := by
  refine completes_fetching (hi s) (blind_branchTicks f v) ?_
  rw [branchTicks_eq, quietInstr_start hb.rw_eq, List.length_cons, List.length_cons, operandTick_during, pc_two,
    quietTicks_during (act := branchTargetTick (flagIs f v)) (by decide) rfl]
  by_cases htaken : s.flag f = v
  · rw [branchTargetTick_of_taken f v _ _ (by exact htaken), if_pos htaken]
    show ∃ t : State, quietTicks _ _ 2 (s.during i.opcode 2 (s.pc + 2) (branchTarget o s) (s.pc + 2) _) = _ ∧ _
    rw [quietTicks_during (act := branchPageTick) (by decide) rfl]
    cases hpage : samePage (branchTarget o s) (s.pc + 2) with
    | true =>
      rw [branchPageTick_of_samePage _ _ (by exact hpage)]
      exact ⟨_, quietTicks_done rfl, rfl, rfl, hb.brk_eq⟩
    | false =>
      rw [branchPageTick_of_crosses _ _ (by exact hpage)]
      show ∃ t : State, quietTicks _ _ 1 (s.during i.opcode 3 (s.pc + 2) (branchTarget o s) _ _) = _ ∧ _
      rw [quietTicks_during (act := branchCrossTick) (by decide) rfl]
      exact ⟨_, rfl, rfl, rfl, hb.brk_eq⟩
  · rw [branchTargetTick_of_not_taken f v _ _ (by exact htaken), if_neg htaken]
    exact ⟨_, quietTicks_done rfl, rfl, rfl, hb.brk_eq⟩

/-- Settles O36: the eight run one microprogram, to the target where it takes the branch and past the branch where it does not. -/
theorem branchInstructions : Obligations.BranchInstructions := by
  intro s o hb hlo hhi q hq
  have hfits : offsetFits o = true := by simp [offsetFits, hlo, hhi]
  rw [← branchTarget_eq hfits]
  exact completes_branch (isBranch_of_mem q hq) hb

/-! ### NOPs -/

/-- Settles O37: the operations of a NOP with an operand and of one without do nothing, in every mode. -/
theorem nopInstructions : Obligations.NopInstructions := by
  intro s hb
  refine ⟨?implied, ?imm, ?mem⟩
  case implied =>
    simp only [List.forall_mem_cons]
    exact ⟨runsImplied hb actsAs_nopOp rfl, runsImplied hb actsAs_nopOp rfl, runsImplied hb actsAs_nopOp rfl,
      runsImplied hb actsAs_nopOp rfl, runsImplied hb actsAs_nopOp rfl, runsImplied hb actsAs_nopOp rfl,
      runsImplied hb actsAs_nopOp rfl, List.forall_mem_nil _⟩
  case imm =>
    simp only [List.forall_mem_cons]
    exact ⟨runsImmediate hb actsAs_nopReadOp fun _ => rfl, runsImmediate hb actsAs_nopReadOp fun _ => rfl,
      runsImmediate hb actsAs_nopReadOp fun _ => rfl, runsImmediate hb actsAs_nopReadOp fun _ => rfl,
      runsImmediate hb actsAs_nopReadOp fun _ => rfl, List.forall_mem_nil _⟩
  case mem =>
    exact runsRead_forms hb actsAs_nopReadOp
      ⟨fun _ _ => rfl, fun _ _ => rfl, fun _ _ => rfl, fun _ _ => rfl, fun _ _ => rfl, fun _ _ => rfl, fun _ _ => rfl, fun _ _ => rfl,
        fun _ _ => rfl, fun _ _ => rfl, fun _ _ => rfl, fun _ _ => rfl, fun _ _ => rfl, fun _ _ => rfl, fun _ _ => rfl, fun _ _ => rfl⟩

end Sys2Proof.Machine
end

section
/-!
SUPPORT. The interrupt pipelines through a run that nothing stalls: what each tick does to them, and what the next boundary recognises in
them (40_execution.md R102, R103, R106, R108).
-/
namespace Sys2Proof.Machine

/-! ### The ticks of a run -/

/-- The pipelines after the tick of a boundary. -/
def Intr.firstTick (n : Intr) (l : Lines) (masked : Bool) : Intr := (n.sample l masked).keepYoungest.shift

/-- The pipelines after a later tick. -/
def Intr.nextTick (n : Intr) (l : Lines) (masked : Bool) : Intr := (n.sample l masked).shift

/-- The pipelines after the tick in which a branch goes to its target in the page (44_control_stack.md R240). -/
def Intr.branchTick (n : Intr) (l : Lines) (masked : Bool) : Intr := (n.sample l masked).unshift.shift

/-- The first tick of an instruction that reads an operand byte in its T0. -/
theorem cycle_enterOpcode {ts : List Action} {s : State} (hb : s.AtBoundary) (hu : s.Unstalled) (op : Byte) :
    cycle (fun c s => microStep (operandTick :: ts) c (s.enterOpcode op)) (some op) s =
      (s.during op 1 (s.pc + 2) s.ad (s.pc + 1) op).withEnv (s.intr.firstTick s.line (s.flag .i)) s.lines.tail := by
  have hsub : ∀ u : State, (u.enterOpcode op).subCycle = 0 := fun _ => subCycle_of_ir (irAt_zero op) (by decide)
  have hmicro : ∀ c (u : State), microStep (operandTick :: ts) c (u.enterOpcode op) =
      operandTick c { u.enterOpcode op with rw := false, ir := (u.enterOpcode op).ir + 1 } := fun c u => by
    simp only [microStep, hsub, List.getElem?_cons_zero]
  have hbus : s.dbus op = op := if_neg (by simp [hb.rw_eq])
  have hsampled : s.sampled (s.busInput (some op)) =
      ({ s with dout := op } : State).withEnv (s.intr.sample s.line (s.flag .i)) s.lines :=
    congrArg (fun d => ({ s with dout := d } : State).withEnv (s.intr.sample s.line (s.flag .i)) s.lines) hbus
  rw [cycle_of_unstalled hu, liveTick_platform, hmicro, hsampled, ← pc_two]
  rfl

/-- A later tick of a run. -/
theorem runTicks_during {ticks : List Action} {operand : List (Option Byte)} {n k : Nat} {s : State} {op : Byte}
    {pc ad addr : Word} {d : Byte} {m : Intr} {ls : List Lines} {act : Action} (hu : ∀ l ∈ ls, l.rdy = false) (hk : k < 8)
    (ha : ticks[k]? = some act) :
    runTicks ticks operand (n + 1) ((s.during op k pc ad addr d).withEnv m ls) =
      runTicks ticks operand n
        (act { dbus := (operand[k]?.getD none).getD (s.readByte addr), res := (ls.headD Lines.idle).res }
          ((s.during op (k + 1) pc ad addr ((operand[k]?.getD none).getD (s.readByte addr))).withEnv
            (m.sample (ls.headD Lines.idle) (s.flag .i)) ls)).afterTick := by
  have hsub : ∀ d m, ((s.during op k pc ad addr d).withEnv m ls).subCycle = k := fun _ _ => subCycle_of_ir (code := op) rfl hk
  have hmicro : ∀ c d m, microStep ticks c ((s.during op k pc ad addr d).withEnv m ls) =
      act c ((s.during op (k + 1) pc ad addr d).withEnv m ls) := fun c d m => by
    rw [State.during.eq_def (k := k + 1), ← irAt_succ]
    simp only [microStep, hsub, ha]
    rfl
  rw [runTicks, if_neg (by exact Bool.false_ne_true), hsub, cycle_of_unstalled (by exact hu), liveTick_platform]
  exact congrArg (fun t : State => runTicks ticks operand n t.afterTick) (hmicro _ _ _)

/-! ### Samples in the pipelines -/

section
variable (n : Intr) (l : Lines) (masked : Bool)

theorem sample_irqPip_zero : (n.sample l masked).irqPip.getLsbD 0 = (n.irqPip.getLsbD 0 || (l.irq && !masked)) := by
  cases h : l.irq && !masked <;> simp [Intr.sample, h]

theorem sample_irqPip_succ (k : Nat) : (n.sample l masked).irqPip.getLsbD (k + 1) = n.irqPip.getLsbD (k + 1) := by
  cases h : l.irq && !masked <;> simp [Intr.sample, h]

/-- A sample of this tick is too young for the boundary to recognise. -/
theorem sample_nmiPip_recognised : (n.sample l masked).nmiPip &&& 0xFFFC = n.nmiPip &&& 0xFFFC := by
  simp only [Intr.sample]
  split
  · rw [BitVec.and_comm, BitVec.and_or_distrib_left, BitVec.and_comm _ n.nmiPip]
    exact BitVec.or_zero
  · rfl

theorem firstTick_irqPip_one : (n.firstTick l masked).irqPip.getLsbD 1 = (n.irqPip.getLsbD 0 || (l.irq && !masked)) := by
  rw [← sample_irqPip_zero]
  simp [Intr.firstTick, Intr.shift, Intr.keepYoungest]

theorem nextTick_irqPip_zero : (n.nextTick l masked).irqPip.getLsbD 0 = false := by
  simp [Intr.nextTick, Intr.shift]

theorem nextTick_irqPip_one : (n.nextTick l masked).irqPip.getLsbD 1 = (n.irqPip.getLsbD 0 || (l.irq && !masked)) := by
  rw [← sample_irqPip_zero]
  simp [Intr.nextTick, Intr.shift]

theorem nextTick_irqPip_two : (n.nextTick l masked).irqPip.getLsbD 2 = n.irqPip.getLsbD 1 := by
  rw [← sample_irqPip_succ n l masked]
  simp [Intr.nextTick, Intr.shift]

theorem branchTick_irqPip_two : (n.branchTick l masked).irqPip.getLsbD 2 = n.irqPip.getLsbD 2 := by
  rw [← sample_irqPip_succ n l masked]
  simp [Intr.branchTick, Intr.shift, Intr.unshift]

end

/-! ### What the next boundary recognises -/

theorem recognised_irq {t : State} (hu : t.Unstalled) (hb : t.brk = BrkFlags.empty) :
    (recognised t).irq = t.intr.irqPip.getLsbD 2 := by
  rw [recognised_of_unstalled hu]
  show (t.brk.irq || (t.intr.sample _ _).irqPip.getLsbD 2) = _
  rw [hb, sample_irqPip_succ]
  rfl

theorem recognised_nmi {t : State} (hu : t.Unstalled) (hb : t.brk = BrkFlags.empty) :
    (recognised t).nmi = decide (t.intr.nmiPip &&& 0xFFFC ≠ 0) := by
  rw [recognised_of_unstalled hu]
  show (t.brk.nmi || decide ((t.intr.sample _ _).nmiPip &&& 0xFFFC ≠ 0)) = _
  rw [hb, sample_nmiPip_recognised]
  rfl

end Sys2Proof.Machine
end

section
/-!
Interrupts after a branch: O60.
-/
namespace Sys2Proof.Machine

/-! ### The pipelines after a taken branch -/

/-- In its page: the samples of two ticks, the second made a tick younger; that of the third is lost. -/
def Intr.afterInPage (n : Intr) (l0 l1 l2 : Lines) (masked : Bool) : Intr :=
  ((n.firstTick l0 masked).nextTick l1 masked).branchTick l2 masked

/-- Across pages: the samples of all four ticks. -/
def Intr.afterCrossing (n : Intr) (l0 l1 l2 l3 : Lines) (masked : Bool) : Intr :=
  (((n.firstTick l0 masked).nextTick l1 masked).nextTick l2 masked).nextTick l3 masked

section
variable (n : Intr) (l0 l1 l2 l3 : Lines) (masked : Bool)

theorem afterInPage_irqPip (h : n.irqPip.getLsbD 0 = false) :
    (n.afterInPage l0 l1 l2 masked).irqPip.getLsbD 2 = (l0.irq && !masked) := by
  rw [Intr.afterInPage, branchTick_irqPip_two, nextTick_irqPip_two, firstTick_irqPip_one, h, Bool.false_or]

theorem afterCrossing_irqPip : (n.afterCrossing l0 l1 l2 l3 masked).irqPip.getLsbD 2 = (l2.irq && !masked) := by
  rw [Intr.afterCrossing, nextTick_irqPip_two, nextTick_irqPip_one, nextTick_irqPip_zero, Bool.false_or]

/-- From a pipeline with no edge and a released line: an edge of the first tick stands where a boundary recognises it, one of the second
where the next boundary will. -/
theorem afterInPage_nmiPip (hpip : n.nmiPip = 0) (hprev : n.nmiPrev = false) : (n.afterInPage l0 l1 l2 masked).nmiPip =
    if l0.nmi then 4 else if l1.nmi then 2 else 0 := by
  simp only [Intr.afterInPage, Intr.firstTick, Intr.nextTick, Intr.branchTick, Intr.sample, Intr.keepYoungest, Intr.shift, Intr.unshift,
    hpip, hprev]
  cases l0.nmi <;> cases l1.nmi <;> cases l2.nmi <;> rfl

/-- From the same pipeline: the boundary recognises an edge of any tick but the fourth. -/
theorem afterCrossing_nmiPip (hpip : n.nmiPip = 0) (hprev : n.nmiPrev = false) :
    decide ((n.afterCrossing l0 l1 l2 l3 masked).nmiPip &&& 0xFFFC ≠ 0) = (l0.nmi || l1.nmi || l2.nmi) := by
  simp only [Intr.afterCrossing, Intr.firstTick, Intr.nextTick, Intr.sample, Intr.keepYoungest, Intr.shift, hpip, hprev]
  cases l0.nmi <;> cases l1.nmi <;> cases l2.nmi <;> cases l3.nmi <;> rfl

end

/-! ### A taken branch, tick by tick -/

/-- The state after an instruction, as far as recognition at the next boundary depends on it. -/
structure State.LeftWith (t : State) (n : Intr) : Prop where
  intr : t.intr = n
  brk : t.brk = BrkFlags.empty
  unstalled : t.Unstalled

section
variable {i : Instr} {f : Flag} {v : Bool} {o : Int} {s t : State} {l0 l1 l2 : Lines} {rest : List Lines} (hi : IsBranch i f v o)
  (hb : s.AtBoundary) (hu : s.Unstalled) (hl : s.lines = l0 :: l1 :: l2 :: rest) (htaken : s.flag f = v) (ht : exec i s = .next t)
include hi hb hu hl htaken ht

/-- The first two ticks of a taken branch. -/
theorem branch_before_page : (∀ l ∈ l2 :: rest, l.rdy = false) ∧ ∃ d, t =
    runTicks (branchTicks (flagIs f v)) [none, some (offsetByte o)] 2
      ((s.during i.opcode 2 (s.pc + 2) (branchTarget o s) (s.pc + 2) d).withEnv
        ((s.intr.firstTick l0 (s.flag .i)).nextTick l1 (s.flag .i)) (l2 :: rest)) := by
  obtain rfl := Host.Outcome.next.inj (ht.symm.trans (hi s))
  have hlate : ∀ l ∈ l1 :: l2 :: rest, l.rdy = false := fun l hmem => hu l (hl ▸ List.mem_cons_of_mem _ hmem)
  refine ⟨fun l hmem => hlate l (List.mem_cons_of_mem _ hmem), offsetByte o, ?_⟩
  rw [runFrom, branchTicks_eq, cycle_enterOpcode hb hu, State.line, hl]
  refine (runTicks_during (n := 2) (act := branchTargetTick (flagIs f v)) (by exact hlate) (by decide) rfl).trans ?_
  rw [branchTargetTick_of_taken f v _ _ (by exact htaken)]
  rfl

theorem branch_inPage (hpage : samePage (branchTarget o s) (s.pc + 2) = true) :
    t.LeftWith (s.intr.afterInPage l0 l1 l2 (s.flag .i)) := by
  obtain ⟨hlast, d, rfl⟩ := branch_before_page hi hb hu hl htaken ht
  rw [branchTicks_eq, runTicks_during (act := branchPageTick) hlast (by decide) rfl, branchPageTick_of_samePage _ _ (by exact hpage),
    runTicks_done rfl]
  exact ⟨rfl, hb.brk_eq, fun l hmem => hlast l (List.mem_cons_of_mem _ hmem)⟩

theorem branch_crossing (hpage : samePage (branchTarget o s) (s.pc + 2) = false) :
    t.LeftWith (s.intr.afterCrossing l0 l1 l2 (rest.headD Lines.idle) (s.flag .i)) := by
  obtain ⟨hlast, d, rfl⟩ := branch_before_page hi hb hu hl htaken ht
  have hrest : ∀ l ∈ rest, l.rdy = false := fun l hmem => hlast l (List.mem_cons_of_mem _ hmem)
  rw [branchTicks_eq, runTicks_during (act := branchPageTick) hlast (by decide) rfl, branchPageTick_of_crosses _ _ (by exact hpage)]
  show State.LeftWith (runTicks _ _ 1 ((s.during i.opcode 3 (s.pc + 2) (branchTarget o s)
    (((s.pc + 2) &&& 0xFF00) ||| (branchTarget o s &&& 0x00FF)) _).withEnv _ rest)) _
  rw [runTicks_during (act := branchCrossTick) hrest (by decide) rfl]
  exact ⟨rfl, hb.brk_eq, fun l hmem => hrest l (List.mem_of_mem_tail hmem)⟩

end

/-- Settles O60: the tick that goes to a target in the page makes the samples before it one tick younger, which no other tick of a branch
does. -/
theorem branchQuirk : Obligations.BranchQuirk := by
  intro s t o l0 l1 l2 rest hb hu hirq hl q hq htaken ht
  have hi := isBranch_of_mem (o := o) q hq
  have hinPage := branch_inPage hi hb hu hl htaken ht
  have hcrossing := branch_crossing hi hb hu hl htaken ht
  refine ⟨fun hpage => ?_, fun hpage => ?_, fun hpip hprev => ⟨fun hpage => ?_, fun hpage => ?_⟩⟩
  · obtain ⟨hintr, hbrk, hut⟩ := hinPage hpage
    rw [recognised_irq hut hbrk, hintr, afterInPage_irqPip _ _ _ _ _ hirq]
  · obtain ⟨hintr, hbrk, hut⟩ := hcrossing hpage
    rw [recognised_irq hut hbrk, hintr, afterCrossing_irqPip]
  · obtain ⟨hintr, hbrk, hut⟩ := hinPage hpage
    rw [recognised_nmi hut hbrk, hintr, afterInPage_nmiPip _ _ _ _ _ hpip hprev]
    refine ⟨?_, rfl, fun h0 h1 => by rw [h0, h1]; rfl, fun h0 h1 => by rw [h0, h1]; rfl⟩
    cases l0.nmi <;> cases l1.nmi <;> rfl
  · obtain ⟨hintr, hbrk, hut⟩ := hcrossing hpage
    rw [recognised_nmi hut hbrk, hintr, afterCrossing_nmiPip _ _ _ _ _ _ hpip hprev]

end Sys2Proof.Machine
end

section
/-!
Undocumented operations on memory, on an immediate operand, and the unstable ones: O38 to O42.
-/
namespace Sys2Proof.Machine

/-! ### Combined read-modify-write instructions -/

/-- RRA by its obligation's cases: the four flags of the addition hide those of the rotate. -/
theorem modifiesAs_rraStep_cases : ModifiesAs rraStep fun v r => let w := ror v (r.flag .c)
    (w.1, r.loadAlu (if r.flag .d = false then adcBin r.a w.1 w.2
      else if isBcd r.a && isBcd w.1 then adcDec r.a w.1 w.2 else Config.decimalInvalid .rra r.a w.1 w.2)) := by
  simpa only [adcResult_eq, Arch.loadAlu, setNVZC_shiftStatus] using modifiesAs_rraStep

/-- Settles O38: the microprograms of an instruction share one final step, whatever the mode. -/
theorem combinedModifyInstructions : Obligations.CombinedModifyInstructions := by
  intro s hb hw
  refine ⟨?slo, ?rla, ?sre, ?rra, ?dcp, ?isb⟩
  case slo =>
    exact runsModify_forms hb hw modifiesAs_sloStep
      ⟨fun _ _ => rfl, fun _ _ => rfl, fun _ _ => rfl, fun _ _ => rfl, fun _ _ => rfl, fun _ _ => rfl, fun _ _ => rfl⟩
  case rla =>
    exact runsModify_forms hb hw modifiesAs_rlaStep
      ⟨fun _ _ => rfl, fun _ _ => rfl, fun _ _ => rfl, fun _ _ => rfl, fun _ _ => rfl, fun _ _ => rfl, fun _ _ => rfl⟩
  case sre =>
    exact runsModify_forms hb hw modifiesAs_sreStep
      ⟨fun _ _ => rfl, fun _ _ => rfl, fun _ _ => rfl, fun _ _ => rfl, fun _ _ => rfl, fun _ _ => rfl, fun _ _ => rfl⟩
  case rra =>
    exact runsModify_forms hb hw modifiesAs_rraStep_cases
      ⟨fun _ _ => rfl, fun _ _ => rfl, fun _ _ => rfl, fun _ _ => rfl, fun _ _ => rfl, fun _ _ => rfl, fun _ _ => rfl⟩
  case dcp =>
    exact runsModify_forms hb hw modifiesAs_dcpStep
      ⟨fun _ _ => rfl, fun _ _ => rfl, fun _ _ => rfl, fun _ _ => rfl, fun _ _ => rfl, fun _ _ => rfl, fun _ _ => rfl⟩
  case isb =>
    simp only [← sbcResult_eq]
    exact runsModify_forms hb hw modifiesAs_isbStep
      ⟨fun _ _ => rfl, fun _ _ => rfl, fun _ _ => rfl, fun _ _ => rfl, fun _ _ => rfl, fun _ _ => rfl, fun _ _ => rfl⟩

/-! ### SAX and LAX -/

theorem stores_saxStore : Stores saxStore fun s => s.a &&& s.x :=
  ⟨fun _ _ n _ => ⟨n, rfl⟩, fun _ _ _ _ _ _ _ => ⟨rfl, rfl, rfl, rfl, rfl, rfl, rfl⟩⟩

/-- Settles O39: one store action and one operation, in every mode. -/
theorem saxAndLax : Obligations.SaxAndLax := by
  intro s hb
  refine ⟨?sax, ?lax⟩
  case sax => exact runsStore_forms hb stores_saxStore ⟨fun _ _ => rfl, fun _ _ => rfl, fun _ _ => rfl, fun _ _ => rfl⟩
  case lax =>
    exact runsRead_forms hb actsAs_laxOp
      ⟨fun _ _ => rfl, fun _ _ => rfl, fun _ _ => rfl, fun _ _ => rfl, fun _ _ => rfl, fun _ _ => rfl⟩

/-! ### Combined operations on an immediate operand -/

/-- SBX in bytes: the difference, and whether nothing is borrowed. -/
theorem sbx_eq (a x m : Byte) : sbx a x m = ((a &&& x) - m, decide (m ≤ a &&& x)) :=
  Prod.ext (lo_sub_zext16 (a &&& x) m) (beq_eq_decide_of_iff (hi_sub_zext16_eq_zero_iff (a &&& x) m))

/-- Settles O40: the operation of each instruction by its effect; ARR is binary or decimal by `arrResult_eq`. -/
theorem immediateCombinedInstructions : Obligations.ImmediateCombinedInstructions := by
  intro s hb
  refine ⟨?anc, ?asr, ?arr, ?sbx⟩
  case anc =>
    simp only [List.forall_mem_cons]
    exact ⟨runsImmediate hb actsAs_ancOp fun _ => rfl, runsImmediate hb actsAs_ancOp fun _ => rfl, List.forall_mem_nil _⟩
  case asr => exact runsImmediate hb actsAs_asrOp fun _ => rfl
  case arr =>
    simp only [← arrResult_eq]
    exact runsImmediate hb actsAs_arrOp fun _ => rfl
  case sbx => exact runsImmediate hb (by simpa only [sbx_eq] using actsAs_sbxOp) fun _ => rfl

/-! ### Unstable loads -/

/-- Settles O41: the operation of each instruction by its effect. -/
theorem unstableLoads : Obligations.UnstableLoads := by
  intro s hb
  refine ⟨?ane, ?lxa, ?las⟩
  case ane => exact runsImmediate hb actsAs_aneOp fun _ => rfl
  case lxa => exact runsImmediate hb actsAs_lxaOp fun _ => rfl
  case las => exact runsRead_aby hb actsAs_lasOp fun _ => rfl

/-! ### Unstable stores -/

theorem blind_unstableDrive (op : UnstableOp) {index : State → Byte} (hi : index = State.x ∨ index = State.y) :
    EnvBlind fun _ => unstableDrive op index := by
  rcases hi with rfl | rfl <;> exact fun _ _ n _ => ⟨n, rfl⟩

/-- The store of R275 drives the byte that UnstableStore gives for the base that the addressing ticks have left in AD. -/
theorem drives_unstableDrive (op : UnstableOp) {index : State → Byte} (hi : index = State.x ∨ index = State.y) (s : State)
    (code : Byte) (n : Nat) (pc base addr : Word) (d : Byte) : Drives (unstableDrive op index)
      (Config.unstableStore op s.a s.x s.y s.sp base (index s)) id (s.during code n pc base addr d) := by
  rcases hi with rfl | rfl <;> exact ⟨rfl, rfl, rfl, rfl, rfl, rfl, rfl⟩

theorem drives_shsStore (s : State) (code : Byte) (n : Nat) (pc base addr : Word) (d : Byte) :
    Drives shsStore (Config.unstableStore .shs s.a s.x s.y (s.a &&& s.x) base s.y) (fun r => { r with sp := s.a &&& s.x })
      (s.during code n pc base addr d) :=
  ⟨rfl, rfl, rfl, rfl, rfl, rfl, rfl⟩

/-- A form of SHA, SHX or SHY completes with the byte that UnstableStore gives stored at its address. -/
theorem completes_unstableStore {i : Instr} {m : Mode} {op : UnstableOp} {index : State → Byte} {operand : List (Option Byte)}
    {len ea base : Word} {s : State} (hx : exec i s = runReading i (writeTicks m (unstableDrive op index)) operand s)
    (hi : index = State.x ∨ index = State.y) (hb : s.AtBoundary) (hn : (addressing m .write).length < 8)
    (hr : Addresses m .write i operand len ea base s) : Completes i s ((s.arch.skip len).store ea
      (Config.unstableStore op s.a s.x s.y s.sp base (index s))) :=
  completes_write hx (blind_unstableDrive op hi) (fun n d => drives_unstableDrive op hi s i.opcode n _ base ea d) hb hn hr

/-- Settles O42: the addressing ticks of a store leave its base in AD and go to the carried address. -/
theorem unstableStores : Obligations.UnstableStores := by
  intro s hb
  have haby : ∀ (i : Instr) (k : Word), Addresses .aby .write i [none, some (lo k), some (hi k)] 3 (addrAby k s) k s :=
    fun _ k => addresses_aby hb k (by decide)
  refine ⟨fun k => ?shaAby, fun z => ?shaIdy, fun k => ?shx, fun k => ?shy, fun k => ?shs⟩
  case shaAby => exact completes_unstableStore rfl (.inr rfl) hb (by decide) (haby _ k)
  case shaIdy => exact completes_unstableStore rfl (.inr rfl) hb (by decide) (addresses_idy hb z (by decide))
  case shx => exact completes_unstableStore rfl (.inr rfl) hb (by decide) (haby _ k)
  case shy => exact completes_unstableStore rfl (.inl rfl) hb (by decide) (addresses_abx hb k (by decide))
  case shs =>
    exact completes_write rfl (fun _ _ n _ => ⟨n, rfl⟩) (fun n d => drives_shsStore s _ n _ k _ d) hb (by decide) (haby _ k)

end Sys2Proof.Machine
end

section
/-!
JAM: O43.
-/
namespace Sys2Proof.Machine

/-! ### Runs in which no tick sees RES -/

theorem State.NoReset.line_res {s : State} (h : s.NoReset) : s.line.res = false := by
  rw [State.line]
  match hl : s.lines with
  | [] => rfl
  | l :: _ => exact h l (by simp [hl])

theorem State.NoReset.of_tail {s t : State} (h : s.NoReset) (ht : t.lines = s.lines.tail) : t.NoReset :=
  fun l hmem => h l (List.mem_of_mem_tail (ht ▸ hmem))

/-- The stalls before a tick let lines pass, and assert none. -/
theorem awaitReady_noReset {stall : State → Input → State} (hstall : ∀ s inp, (stall s inp).lines = s.lines) (data : Option Byte)
    (ls : List Lines) {s : State} (h : s.NoReset) : (awaitReady stall data ls s).NoReset := by
  induction ls generalizing s with
  | nil => exact h
  | cons l ls ih =>
    rw [awaitReady]
    split
    · exact ih (h.of_tail (congrArg List.tail (hstall s _)))
    · exact h

/-- Where RES is never asserted, a cycle is that of the action that does not see it. -/
theorem cycleWith_of_noReset {stall : State → Input → State} (hstall : ∀ s inp, (stall s inp).lines = s.lines) (act : Action)
    (data : Option Byte) {s : State} (h : s.NoReset) :
    cycleWith stall act data s = cycleWith stall (fun c => act { c with res := false }) data s := by
  have hres := (awaitReady_noReset hstall data s.lines h).line_res
  simp only [cycleWith, State.liveTick, State.busInput, hres]

theorem cycle_noReset {act : Action} (hact : ∀ c s, (act c s).lines = s.lines) (data : Option Byte) {s : State} (h : s.NoReset) :
    (cycle act data s).NoReset := by
  have hwait := awaitReady_noReset (stall := State.stallTick) (fun _ _ => rfl) data s.lines h
  refine hwait.of_tail ?_
  show (act _ _).lines.tail = _
  rw [hact]
  rfl

/-! ### JAM -/

theorem irAt_one (code : Byte) : irAt code 1 = (code.setWidth 11 <<< 3) ||| 1 := by
  refine BitVec.add_eq_or_of_and_eq_zero _ _ ?_
  ext k hk
  rcases k with _ | k <;> simp

theorem jamTick_lines (c : Seen) (s : State) : (jamTick c s).lines = s.lines := by
  rw [jamTick]
  split <;> rfl

theorem microStep_jamTicks_lines (c : Seen) (s : State) : (microStep jamTicks c s).lines = s.lines := by
  simp only [microStep]
  split
  · next act hact =>
    have hmem := List.mem_of_getElem? hact
    simp only [jamTicks, List.mem_cons, List.not_mem_nil, or_false] at hmem
    rcases hmem with rfl | rfl
    · rfl
    · exact jamTick_lines c _
  · rfl

/-- A tick of the JAM state that RES does not lead out of sets the pins, and nothing else. -/
theorem microStep_jam_of_stays {code : Byte} {s : State} (hs : s.Midway code 1) {c : Seen}
    (hc : (c.res && Config.jamResExits) = false) :
    microStep jamTicks c s = { s with addr := 0xFFFF, dout := 0xFF, rw := false } := by
  obtain ⟨-, hir, -⟩ := hs
  have hact : jamTicks[s.subCycle]? = some jamTick := by rw [subCycle_of_ir hir (by decide)]; rfl
  simp only [microStep, hact, jamTick, BitVec.add_sub_cancel, hc, Bool.false_eq_true, if_false]

/-- A cycle of the JAM state, with its stalls, sets the pins, unless RES leads out. -/
theorem jamCycle_stays {code : Byte} {s : State} (hs : s.Midway code 1) (hr : Config.jamResExits = true → s.NoReset) :
    ∃ n ks, cycleWith State.jamStallTick (microStep jamTicks) none s =
      { s.withEnv n ks with addr := 0xFFFF, dout := 0xFF, rw := false } := by
  cases hexits : Config.jamResExits with
  | false =>
    obtain ⟨n, ks, j, d, c, he⟩ := jamCycle_eq (microStep jamTicks) s
    rw [he, microStep_jam_of_stays (by exact hs) (by rw [hexits, Bool.and_false])]
    exact ⟨n.shift, ks.tail, rfl⟩
  | true =>
    obtain ⟨n, ks, j, d, c, he⟩ := jamCycle_eq (fun c => microStep jamTicks { c with res := false }) s
    rw [cycleWith_of_noReset (stall := State.jamStallTick) (fun _ _ => rfl) _ _ (hr hexits), he, microStep_jam_of_stays (by exact hs) rfl]
    exact ⟨n.shift, ks.tail, rfl⟩

/-- The boundary of a JAM and its T0 read past the opcode. -/
theorem enterCycle_jam {i : Instr} (hj : isJam i = true) (s : State) :
    ∃ n ks d, enterCycle i s = (s.during i.opcode 1 (s.pc + 1) s.ad (s.pc + 1) d).withEnv n ks := by
  obtain ⟨n, ks, d, c, he⟩ := enterCycle_eq (microprogram_jam hj) s
  rw [he]
  exact ⟨n.shift, ks.tail, d, rfl⟩

theorem enterCycle_jam_noReset {i : Instr} (hj : isJam i = true) {s : State} (h : s.NoReset) : (enterCycle i s).NoReset := by
  rw [enterCycle, microprogram_jam hj]
  exact cycle_noReset (act := fun c s => microStep jamTicks c (s.enterOpcode i.opcode)) (fun c s => microStep_jamTicks_lines c _) _ h

/-- A JAM that RES does not lead out of leaves the core in the JAM state: one step of PC, and the pins. -/
theorem exec_jam_stays {i : Instr} (hj : isJam i = true) {s : State} (hb : s.AtBoundary)
    (hr : Config.jamResExits = true → s.NoReset) : ∃ t, exec i s = .next t ∧ t.arch = s.arch.skip 1 ∧ t.Jammed ∧ t.ad = s.ad ∧
      t.ir = (i.opcode.setWidth 11 <<< 3) ||| 1 := by
  obtain ⟨n, ks, d, hfirst⟩ := enterCycle_jam hj s
  have hmid : (enterCycle i s).Midway i.opcode 1 := by
    rw [hfirst]
    exact ⟨rfl, rfl, hb.brk_eq⟩
  obtain ⟨m, ls, hlast⟩ := jamCycle_stays hmid fun hexits => enterCycle_jam_noReset hj (hr hexits)
  obtain ⟨hsync, hir, hbrk⟩ := hmid
  have hexec : exec i s = .next (cycleWith State.jamStallTick (microStep jamTicks) none (enterCycle i s)) := by
    rw [exec_eq_runJam hj, enterCycle, microprogram_jam hj]
  have hcode := irOpcode_of_ir hir (by decide)
  have hjam : (enterCycle i s).inJam = true :=
    (inJam_iff _).mpr ⟨hsync, subCycle_of_ir hir (by decide), hcode.symm ▸ opcode_mem_jamCodes hj⟩
  refine ⟨_, hexec.trans (congrArg _ hlast), ?_, ⟨hjam, rfl, rfl, rfl, hbrk⟩, ?_, hir.trans (irAt_one i.opcode)⟩ <;>
    (rw [hfirst]; rfl)

/-- Settles O43: the boundary of a JAM leads to its sub-cycle 1, where it stays. -/
theorem jamInstruction : Obligations.JamInstruction := by
  intro s hb hr i hi
  refine exec_jam_stays ?_ hb hr
  simp only [List.mem_cons, List.not_mem_nil, or_false] at hi
  rcases hi with rfl | rfl | rfl | rfl | rfl | rfl | rfl | rfl | rfl | rfl | rfl | rfl <;> rfl

end Sys2Proof.Machine
end

section
/-!
Interrupt and BRK sequences, at the boundary and as a whole: O7, O15, O16.
-/
namespace Sys2Proof.Machine

/-- Settles O7: at a boundary the step asks first what it recognises. -/
theorem stepTakesRecognisedInterrupts : Obligations.StepTakesRecognisedInterrupts := by
  rintro s ⟨hsync, -, -, -⟩ hr
  rw [step, if_pos hsync, if_pos hr]

/-! ### What is recognised -/

/-- Without a reset, what a boundary recognises is an IRQ or an NMI, so PC is not stepped (60_exceptions.md R308). -/
theorem savedPc_of_recognises {s : State} (hres : (recognised s).res = false) (hr : recognises s = true) (pc : Word) :
    savedPc (recognised s) pc = pc := by
  simp only [recognises, BrkFlags.any, hres, Bool.or_false, Bool.or_eq_true] at hr
  rcases hr with h | h <;> simp [savedPc, h]

theorem vectorAddr_of_not_res {f : BrkFlags} (h : f.res = false) : vectorAddr f = if f.nmi then 0xFFFA else 0xFFFE := by
  rw [vectorAddr, h]
  rfl

theorem entered_of_not_res (r : Arch) {f : BrkFlags} (h : f.res = false) :
    r.entered f = (r.pushFrame (savedPc f r.pc)).enterHandler (if f.nmi then 0xFFFA else 0xFFFE) := by
  rw [Arch.entered, h, vectorAddr_of_not_res h]
  rfl

/-- Settles O15: the sequence pushes its frame, PC not stepped, and enters the handler at the vector of what is recognised. -/
theorem interruptEntry : Obligations.InterruptEntry := by
  intro s hb hres hr
  obtain ⟨harch, hbound⟩ := takeInterrupt_arch hb
  rw [entered_of_not_res _ hres, savedPc_of_recognises hres hr] at harch
  exact ⟨harch, hbound⟩

/-! ### What every sequence leaves -/

/-- The programmer-visible state after a sequence, by what R316 says of it: three bytes of stack, I and B set, the other flags and A, X and
Y kept, PC the word of the vector in the memory it leaves. -/
structure Arch.SequencedFrom (t r : Arch) (vector : Word) : Prop where
  sp : t.sp = r.sp - 3
  i : t.flag .i = true
  b : t.flag .b = true
  flag : ∀ f, f ≠ .i → f ≠ .b → t.flag f = r.flag f
  a : t.a = r.a
  x : t.x = r.x
  y : t.y = r.y
  pc : t.pc = t.word vector

theorem enterHandler_sequencedFrom {r t : Arch} (hsp : t.sp = r.sp - 1 - 1 - 1) (hp : t.p = r.p) (ha : t.a = r.a) (hx : t.x = r.x)
    (hy : t.y = r.y) (vector : Word) : (t.enterHandler vector).SequencedFrom r vector where
  sp := hsp.trans (sp_sub_three r.sp)
  i := by simp [Arch.enterHandler, Arch.flag]
  b := by simp [Arch.enterHandler, Arch.flag]
  flag f hi hb := by simp [Arch.enterHandler, Arch.flag, hp, hi.symm, hb.symm]
  a := ha
  x := hx
  y := hy
  pc := rfl

theorem entered_sequencedFrom (r : Arch) (f : BrkFlags) : (r.entered f).SequencedFrom r (vectorAddr f) := by
  rw [Arch.entered]
  split
  · apply enterHandler_sequencedFrom <;> rfl
  · apply enterHandler_sequencedFrom <;> rfl

/-- The flags that no sequence writes. -/
theorem ne_i_and_ne_b {f : Flag} (hf : f ∈ ([.d, .n, .v, .z, .c] : List Flag)) : f ≠ .i ∧ f ≠ .b := by
  constructor <;> (rintro rfl; simp at hf)

/-- Settles O16: BRK is the sequence on the empty set, from PC past its opcode; the others run it on what is recognised, P.B cleared. -/
theorem sequenceEffects : Obligations.SequenceEffects := by
  rintro s t hb (⟨hr, rfl⟩ | ht)
  · obtain ⟨harch, -⟩ := takeInterrupt_arch hb
    obtain ⟨hsp, hi, hbf, hflag, ha, hx, hy, hpc⟩ := harch ▸ entered_sequencedFrom { s.arch with p := setFlag s.p .b false } (recognised s)
    refine ⟨hsp, hi, hbf, fun f hf => ?_, ha, hx, hy, .inr ⟨hr, hpc⟩⟩
    obtain ⟨hfi, hfb⟩ := ne_i_and_ne_b hf
    exact (hflag f hfi hfb).trans ((getFlag_setFlag _ _ _ _).trans (if_neg hfb.symm))
  · obtain ⟨u, hu, harch, -⟩ := completes_brk hb
    obtain rfl := Host.Outcome.next.inj (hu.symm.trans ht)
    obtain ⟨hsp, hi, hbf, hflag, ha, hx, hy, hpc⟩ := harch ▸ entered_sequencedFrom (s.arch.skip 1) BrkFlags.empty
    refine ⟨hsp, hi, hbf, fun f hf => ?_, ha, hx, hy, .inl ⟨ht, hpc⟩⟩
    obtain ⟨hfi, hfb⟩ := ne_i_and_ne_b hf
    exact hflag f hfi hfb

end Sys2Proof.Machine
end

section
/-!
The JAM state repeats itself: O56.
-/
namespace Sys2Proof.Machine

/-- T1 of a JAM sets the pins, and a fetch besides where RES leads out (60_exceptions.md R325, R326). -/
theorem microStep_jam_eq {code : Byte} {s : State} (hir : s.ir = irAt code 1) (c : Seen) : microStep jamTicks c s =
    if c.res && Config.jamResExits then { s with addr := 0xFFFF, dout := 0xFF, rw := false }.fetch
    else { s with addr := 0xFFFF, dout := 0xFF, rw := false } := by
  have hact : jamTicks[s.subCycle]? = some jamTick := by rw [subCycle_of_ir hir (by decide)]; rfl
  simp only [microStep, hact, jamTick, BitVec.add_sub_cancel]

/-- A tick of the JAM state that is not stalled samples, runs T1 of the JAM, and moves the pipelines. -/
theorem coreTick_of_inJam {s : State} {inp : Input} (hj : s.inJam = true) (hs : s.stalls inp.lines = false) :
    coreTick inp s =
      if inp.lines.res && Config.jamResExits then
        { s with addr := 0xFFFF, dout := 0xFF, rw := false, intr := (s.intr.sample inp.lines (s.flag .i)).shift }.fetch
      else { s with addr := 0xFFFF, dout := 0xFF, rw := false, intr := (s.intr.sample inp.lines (s.flag .i)).shift } := by
  obtain ⟨hsync, hsub, hcode⟩ := (inJam_iff s).mp hj
  have hir : (s.sampled inp).ir = irAt s.irOpcode 1 := hsub ▸ ir_eq_irAt s
  have hprog : microprogramOf (s.sampled inp).irOpcode = jamTicks := microprogramOf_jam hcode
  rw [coreTick, if_neg (by simp [hs]), State.liveTick, microTick_of_sync (by exact hsync), hprog, microStep_jam_eq hir]
  split <;> rfl

/-- Settles O56: a stall in the JAM state sets the pins and ages the environment, and so does T1 of a JAM, but for the fetch where RES leads
out. -/
theorem jamIsIdempotent : Obligations.JamIsIdempotent := by
  intro s inp hj
  have hsync := ((inJam_iff s).mp hj).1
  cases hs : s.stalls inp.lines with
  | true =>
    rw [coreTick_of_stalls hs, hj, Bool.not_true, Bool.and_false]
    have hrw := rw_of_stalls hs
    exact ⟨rfl, rfl, rfl, rfl, rfl, hrw, rfl, rfl, rfl, hsync, hj⟩
  | false =>
    rw [coreTick_of_inJam hj hs, Bool.not_false, Bool.and_true]
    cases inp.lines.res && Config.jamResExits with
    | true => exact ⟨rfl, rfl, rfl, rfl, rfl, rfl, rfl, rfl, rfl, rfl⟩
    | false => exact ⟨rfl, rfl, rfl, rfl, rfl, rfl, rfl, rfl, rfl, hsync, hj⟩

end Sys2Proof.Machine
end

section
/-!
SUPPORT. The ticks of an instruction or a sequence that nothing stalls, one by one: each but the first only samples the lines and moves the
pipelines, and the last alone sets up a fetch (40_execution.md R102, R107-R109).
-/
namespace Sys2Proof.Machine

/-! ### Single ticks -/

/-- The coming tick only samples the lines and moves the pipelines, and the schedule of the lines. -/
structure State.Ages (u : State) : Prop where
  intr : (tick u).intr = u.intr.nextTick u.line (u.flag .i)
  lines : (tick u).lines = u.lines.tail

/-- The core stands at a sub-cycle of an opcode, and nothing will stall it. -/
structure State.At (u : State) (code : Byte) (k : Nat) : Prop where
  unstalled : u.Unstalled
  sync : u.sync = false
  ir : u.ir = irAt code k

/-- The state that the action of a sub-cycle `k` is given. -/
def State.given (u : State) (code : Byte) (k : Nat) : State :=
  { u.sampled (u.busInput none) with rw := false, ir := irAt code (k + 1) }

/-- What the action of the coming tick sees. -/
def State.seen (u : State) : Seen := { dbus := u.busByte none, res := u.line.res }

/-- A sub-cycle performs the action that its microprogram has for it. -/
theorem microStep_of_subCycle {prog : List Action} {s : State} {k : Nat} {act : Action} (hs : s.subCycle = k) (ha : prog[k]? = some act)
    (c : Seen) : microStep prog c s = act c { s with rw := false, ir := s.ir + 1 } := by
  simp only [microStep, hs, ha]

section
variable {u : State} {code : Byte} {k : Nat} {act : Action} (h : u.At code k) (hk : k < 8) (ha : (microprogramOf code)[k]? = some act)
include h hk ha

theorem State.At.tick_eq : tick u = (act u.seen (u.given code k)).afterTick := by
  have hcode : (u.sampled (u.busInput none)).irOpcode = code := irOpcode_of_ir h.ir hk
  have hsub : (u.sampled (u.busInput none)).subCycle = k := subCycle_of_ir h.ir hk
  rw [tick_of_unstalled h.unstalled, cycle_of_unstalled h.unstalled, liveTick_platform, microTick_of_sync (by exact h.sync), hcode,
    microStep_of_subCycle hsub ha, State.given, ← irAt_succ, ← h.ir]
  rfl

theorem State.At.ages (hintr : (act u.seen (u.given code k)).intr = (u.given code k).intr)
    (hlines : (act u.seen (u.given code k)).lines = u.lines) : u.Ages := by
  have ht := h.tick_eq hk ha
  constructor
  · rw [ht]
    exact congrArg Intr.shift hintr
  · rw [ht]
    exact congrArg List.tail hlines

end

theorem State.Ages.unstalled {u : State} (h : u.Ages) (hu : u.Unstalled) : (tick u).Unstalled :=
  fun l hl => hu l (List.mem_of_mem_tail (h.lines ▸ hl))

/-! ### The ticks up to the fetch -/

/-- So many ticks from here, of which each only ages the environment, the next fetch is set up. -/
inductive Finishes : Nat → State → Prop
  | fetch {u : State} (h : u.Ages) (hs : (tick u).sync = true) : Finishes 1 u
  | next {u : State} {n : Nat} (h : u.Ages) (hs : (tick u).sync = false) (hn : Finishes n (tick u)) : Finishes (n + 1) u

theorem Finishes.sync_eq {n : Nat} {u : State} (h : Finishes n u) (hs : u.sync = false) : ∀ k < n, (ticks k u).sync = false := by
  induction h with
  | fetch _ _ =>
    intro k hk
    obtain rfl : k = 0 := by omega
    exact hs
  | next _ hs' _ ih =>
    intro k hk
    cases k with
    | zero => exact hs
    | succ k => exact ih hs' k (by omega)

theorem Finishes.sync_done {n : Nat} {u : State} (h : Finishes n u) : (ticks n u).sync = true := by
  induction h with
  | fetch _ hs => exact hs
  | next _ _ _ ih => exact ih

theorem Finishes.unstalled {n : Nat} {u : State} (h : Finishes n u) (hu : u.Unstalled) : ∀ k ≤ n, (ticks k u).Unstalled := by
  induction h with
  | fetch ha _ =>
    intro k hk
    obtain rfl | rfl : k = 0 ∨ k = 1 := by omega
    · exact hu
    · exact ha.unstalled hu
  | next ha _ _ ih =>
    intro k hk
    cases k with
    | zero => exact hu
    | succ k => exact ih (ha.unstalled hu) k (by omega)

/-! ### Microprograms without a fork -/

/-- The action goes on to the next sub-cycle and leaves the environment to the tick. For a concrete action each field is true by `rfl`,
which is its default. -/
structure Passes (act : Action) : Prop where
  sync : ∀ c s, (act c s).sync = s.sync := by exact fun _ _ => rfl
  ir : ∀ c s, (act c s).ir = s.ir := by exact fun _ _ => rfl
  intr : ∀ c s, (act c s).intr = s.intr := by exact fun _ _ => rfl
  lines : ∀ c s, (act c s).lines = s.lines := by exact fun _ _ => rfl

/-- The action sets up the fetch and leaves the environment to the tick. -/
structure Concludes (act : Action) : Prop where
  sync : ∀ c s, (act c s).sync = true := by exact fun _ _ => rfl
  intr : ∀ c s, (act c s).intr = s.intr := by exact fun _ _ => rfl
  lines : ∀ c s, (act c s).lines = s.lines := by exact fun _ _ => rfl

/-- Every action goes on to the next sub-cycle, but the last, which sets up the fetch. -/
def Straight : List Action → Prop
  | [] => False
  | [last] => Concludes last
  | act :: next :: rest => Passes act ∧ Straight (next :: rest)

theorem Passes.comp {act last : Action} (ha : Passes act) (hl : Passes last) : Passes fun c s => act c (last c s) :=
  ⟨fun c s => (ha.sync c _).trans (hl.sync c s), fun c s => (ha.ir c _).trans (hl.ir c s),
    fun c s => (ha.intr c _).trans (hl.intr c s), fun c s => (ha.lines c _).trans (hl.lines c s)⟩

theorem Straight.cons {act : Action} {l : List Action} (ha : Passes act) (hl : Straight l) : Straight (act :: l) := by
  cases l with
  | nil => exact hl.elim
  | cons next rest => exact ⟨ha, hl⟩

theorem Straight.append {l rest : List Action} (hl : ∀ act ∈ l, Passes act) (hr : Straight rest) : Straight (l ++ rest) := by
  induction l with
  | nil => exact hr
  | cons act l ih =>
    obtain ⟨ha, hl⟩ := List.forall_mem_cons.mp hl
    exact (ih hl).cons ha

section
variable {u : State} {code : Byte} {k : Nat} {act : Action} (h : u.At code k) (hk : k < 8) (ha : (microprogramOf code)[k]? = some act)
include h hk ha

theorem State.At.next_of_passes (hp : Passes act) : u.Ages ∧ (tick u).At code (k + 1) := by
  have hages := h.ages hk ha (hp.intr _ _) (hp.lines _ _)
  have ht := h.tick_eq hk ha
  refine ⟨hages, hages.unstalled h.unstalled, ?_, ?_⟩
  · rw [ht]
    exact (hp.sync _ _).trans h.sync
  · rw [ht]
    exact hp.ir _ _

theorem State.At.finishes_of_concludes (hc : Concludes act) : Finishes 1 u := by
  refine .fetch (h.ages hk ha (hc.intr _ _) (hc.lines _ _)) ?_
  rw [h.tick_eq hk ha]
  exact hc.sync _ _

end

/-- From a sub-cycle whose actions are straight from there on, the next fetch is as many ticks away. -/
theorem Straight.finishes {l : List Action} (hl : Straight l) {u : State} {code : Byte} {k : Nat}
    (hp : (microprogramOf code).drop k = l) (hn : k + l.length ≤ 8) (hu : u.At code k) : Finishes l.length u := by
  induction l generalizing k u with
  | nil => exact hl.elim
  | cons act l ih =>
    have hact : (microprogramOf code)[k]? = some act := by
      rw [← List.head?_drop, hp, List.head?_cons]
    rw [List.length_cons] at hn
    cases l with
    | nil => exact hu.finishes_of_concludes (by omega) hact hl
    | cons next rest =>
      obtain ⟨hpass, hrest⟩ := hl
      obtain ⟨hages, hat⟩ := hu.next_of_passes (by omega) hact hpass
      refine .next hages hat.sync (ih hrest ?_ (by omega) hat)
      rw [← List.drop_drop, hp]
      rfl

/-! ### The tick of the boundary -/

/-- The opcode whose microprogram the coming boundary starts: that of BRK for an interrupt or a reset (40_execution.md R106). -/
def startCode (s : State) : Byte := if recognises s then 0 else (fetched s).opcode

/-- What the coming tick, that of a boundary, leaves of the pipelines: their youngest samples, moved. -/
structure State.Opens (s : State) : Prop where
  irqPip : (tick s).intr.irqPip = (s.intr.firstTick s.line (s.flag .i)).irqPip
  nmiPip : (tick s).intr.nmiPip = (s.intr.firstTick s.line (s.flag .i)).nmiPip

/-- The boundary leaves the youngest samples of the pipelines, and IR at T0. -/
theorem boundary_eq {s : State} (hu : s.Unstalled) :
    let b := (s.sampled (s.busInput none)).boundary (s.busByte none)
    b.sync = false ∧ b.ir = irAt (startCode s) 0 ∧ b.lines = s.lines ∧
      b.intr.irqPip = (s.intr.sample s.line (s.flag .i)).keepYoungest.irqPip ∧
      b.intr.nmiPip = (s.intr.sample s.line (s.flag .i)).keepYoungest.nmiPip := by
  have hreq : (s.sampled (s.busInput none)).requests.any = recognises s := by rw [recognises, recognised_of_unstalled hu]
  rw [State.boundary, startCode, hreq]
  cases recognises s with
  | true => exact ⟨rfl, rfl, rfl, rfl, rfl⟩
  | false =>
    have hcode : s.busByte none = (fetched s).opcode := (decodeInstr_opcode _ _ _).symm
    exact ⟨rfl, hcode ▸ irAt_zero _, rfl, rfl, rfl⟩

/-- A boundary goes on to T1 of the microprogram it starts, where T0 goes on. -/
theorem next_of_boundary {s : State} (hb : s.AtBoundary) (hu : s.Unstalled) {act : Action}
    (ha : (microprogramOf (startCode s))[0]? = some act) (hp : Passes act) : s.Opens ∧ (tick s).At (startCode s) 1 := by
  obtain ⟨hsync, hir, hlines, hirq, hnmi⟩ := boundary_eq hu
  obtain ⟨b, hbd⟩ : ∃ b, b = (s.sampled (s.busInput none)).boundary (s.busByte none) := ⟨_, rfl⟩
  rw [← hbd] at hsync hir hlines hirq hnmi
  have ht : tick s = (act s.seen { b with rw := false, ir := irAt (startCode s) 1 }).afterTick := by
    rw [tick_of_unstalled hu, cycle_of_unstalled hu, liveTick_platform, microTick, if_pos (by exact hb.1), ← irAt_succ, ← hir,
      ← microStep_of_subCycle (subCycle_of_ir hir (by decide)) ha, ← irOpcode_of_ir hir (by decide), hbd]
    rfl
  rw [ht]
  refine ⟨⟨?irqPip, ?nmiPip⟩, ?unstalled, ?sync, ?ir⟩
  case irqPip =>
    rw [ht]
    show (act _ _).intr.irqPip <<< 1 = _
    rw [hp.intr, hirq]
    rfl
  case nmiPip =>
    rw [ht]
    show (act _ _).intr.nmiPip <<< 1 = _
    rw [hp.intr, hnmi]
    rfl
  case unstalled =>
    have hkept : (act s.seen { b with rw := false, ir := irAt (startCode s) 1 }).lines = s.lines := (hp.lines _ _).trans hlines
    exact fun l hl => hu l (List.mem_of_mem_tail (hkept ▸ hl))
  case sync => exact (hp.sync _ _).trans hsync
  case ir => exact hp.ir _ _

end Sys2Proof.Machine
end

section
/-!
SUPPORT. What the boundary at the end of a run recognises, by the tick in which it was sampled (60_exceptions.md R304).
-/
namespace Sys2Proof.Machine

theorem Finishes.last {u : State} (h : Finishes 1 u) : u.Ages := by
  cases h with
  | fetch ha _ => exact ha
  | next ha _ _ => exact ha

theorem Finishes.tail {n : Nat} {u : State} (h : Finishes (n + 2) u) : u.Ages ∧ Finishes (n + 1) (tick u) := by
  cases h with
  | next ha _ hn => exact ⟨ha, hn⟩

/-! ### IRQ -/

/-- The coming tick samples an IRQ (40_execution.md R102). -/
def State.irqSample (s : State) : Bool := s.line.irq && !s.flag .i

/-- Of two ticks and more, the last but one takes the sample that the boundary looks at. -/
theorem Finishes.irqPip_two {n : Nat} {u : State} (h : Finishes (n + 2) u) (hbit : u.intr.irqPip.getLsbD 0 = false) :
    (ticks (n + 2) u).intr.irqPip.getLsbD 2 = (ticks n u).irqSample := by
  induction n generalizing u with
  | zero =>
    obtain ⟨hfirst, hrest⟩ := h.tail
    show (tick (tick u)).intr.irqPip.getLsbD 2 = _
    rw [hrest.last.intr, nextTick_irqPip_two, hfirst.intr, nextTick_irqPip_one, hbit]
    rfl
  | succ n ih =>
    obtain ⟨hfirst, hrest⟩ := h.tail
    exact ih hrest (by rw [hfirst.intr, nextTick_irqPip_zero])

/-- From a boundary, the same. -/
theorem irqPip_two_of_opens {n : Nat} {s : State} (ho : s.Opens) (h : Finishes (n + 1) (tick s)) (hbit : s.intr.irqPip.getLsbD 0 = false) :
    (ticks (n + 2) s).intr.irqPip.getLsbD 2 = (ticks n s).irqSample := by
  cases n with
  | zero =>
    show (tick (tick s)).intr.irqPip.getLsbD 2 = _
    rw [h.last.intr, nextTick_irqPip_two, ho.irqPip, firstTick_irqPip_one, hbit]
    rfl
  | succ n =>
    refine h.irqPip_two ?_
    rw [ho.irqPip]
    simp [Intr.firstTick, Intr.shift]

/-! ### NMI -/

/-- The coming tick samples an edge of NMI (40_execution.md R103). -/
def State.nmiEdge (s : State) : Bool := s.line.nmi && !s.intr.nmiPrev

/-- Some tick of a run samples an edge: the first, or one of the others. -/
theorem exists_nmiEdge_succ (n : Nat) (s : State) : (∃ k < n + 1, (ticks k s).nmiEdge = true) ↔
    s.nmiEdge = true ∨ ∃ k < n, (ticks k (tick s)).nmiEdge = true := Nat.exists_lt_succ_left

theorem toNat_or_one (w : Word) : (w ||| 1).toNat = 2 * (w.toNat / 2) + 1 := by
  have hdiv : (w.toNat ||| 1) / 2 = w.toNat / 2 := Nat.or_div_two.trans (Nat.or_zero _)
  have hmod : (w.toNat ||| 1) % 2 = 1 := Nat.or_mod_two_eq_one.mpr (.inr rfl)
  have hor : (w ||| 1).toNat = w.toNat ||| 1 := BitVec.toNat_or ..
  omega

theorem sample_nmiPip (n : Intr) (l : Lines) (masked : Bool) : (n.sample l masked).nmiPip.toNat =
    if l.nmi && !n.nmiPrev then 2 * (n.nmiPip.toNat / 2) + 1 else n.nmiPip.toNat := by
  rw [← toNat_or_one]
  exact apply_ite BitVec.toNat _ _ _

/-- A tick puts its edge below the others, and moves them. -/
theorem nextTick_nmiPip (n : Intr) (l : Lines) (masked : Bool) : (n.nextTick l masked).nmiPip.toNat =
    2 * (if l.nmi && !n.nmiPrev then 2 * (n.nmiPip.toNat / 2) + 1 else n.nmiPip.toNat) % 65536 := by
  rw [← sample_nmiPip n l masked, Nat.mul_comm]
  exact (BitVec.toNat_shiftLeft ..).trans (congrArg (· % _) (Nat.shiftLeft_eq ..))

/-- The tick of a boundary keeps the two youngest samples, its own among them. -/
theorem firstTick_nmiPip (n : Intr) (l : Lines) (masked : Bool) : (n.firstTick l masked).nmiPip.toNat =
    2 * ((if l.nmi && !n.nmiPrev then 2 * (n.nmiPip.toNat / 2) + 1 else n.nmiPip.toNat) % 4) := by
  rw [← sample_nmiPip n l masked]
  have h3 : (3 : Word).toNat = 2 ^ 2 - 1 := rfl
  show (((n.sample l masked).nmiPip &&& 3) <<< 1).toNat = _
  rw [BitVec.toNat_shiftLeft, BitVec.toNat_and, h3, Nat.and_two_pow_sub_one_eq_mod, Nat.shiftLeft_eq]
  omega

/-- In an even pipeline the edge of a tick stands for 1. -/
theorem State.Ages.nmiPip {u : State} (h : u.Ages) (heven : u.intr.nmiPip.toNat % 2 = 0) (hroom : u.intr.nmiPip.toNat + 2 ≤ 32768) :
    (tick u).intr.nmiPip.toNat = 2 * (u.intr.nmiPip.toNat + if u.nmiEdge then 1 else 0) := by
  rw [h.intr, nextTick_nmiPip]
  show 2 * (if u.nmiEdge then _ else _) % 65536 = _
  split <;> omega

/-- From an even pipeline with room for the run, the boundary recognises what stands in it, and an edge of any tick but the last. -/
theorem Finishes.nmiPip_recognised {n : Nat} {u : State} (h : Finishes (n + 1) u) (heven : u.intr.nmiPip.toNat % 2 = 0)
    (hroom : (u.intr.nmiPip.toNat + 2) * 2 ^ (n + 1) ≤ 65536) :
    4 ≤ (ticks (n + 1) u).intr.nmiPip.toNat ↔ u.intr.nmiPip.toNat ≠ 0 ∨ ∃ k < n, (ticks k u).nmiEdge = true := by
  induction n generalizing u with
  | zero =>
    have ht := h.last.nmiPip heven (by omega)
    show 4 ≤ (tick u).intr.nmiPip.toNat ↔ _
    simp only [Nat.not_lt_zero, false_and, exists_false, or_false]
    rw [ht]
    split <;> omega
  | succ n ih =>
    obtain ⟨hfirst, hrest⟩ := h.tail
    have hpow : 2 ^ (n + 1 + 1) = 2 * 2 ^ (n + 1) := Nat.pow_succ'
    have hpos : 1 ≤ 2 ^ (n + 1) := Nat.one_le_two_pow
    have hsmall : u.intr.nmiPip.toNat + 2 ≤ 32768 := by
      have := Nat.le_mul_of_pos_right (2 * (u.intr.nmiPip.toNat + 2)) hpos
      rw [hpow, Nat.mul_left_comm, ← Nat.mul_assoc] at hroom
      omega
    have ht := hfirst.nmiPip heven hsmall
    have hnext : ((tick u).intr.nmiPip.toNat + 2) * 2 ^ (n + 1) ≤ 65536 := by
      refine le_trans ?_ hroom
      rw [hpow, Nat.mul_left_comm, ← Nat.mul_assoc]
      refine Nat.mul_le_mul_right _ ?_
      rw [ht]
      split <;> omega
    rw [exists_nmiEdge_succ, ← or_assoc]
    refine (ih hrest (by omega) hnext).trans (or_congr ?_ Iff.rfl)
    rw [ht]
    cases u.nmiEdge <;> simp

/-- From a boundary: its own two youngest samples, and an edge of any tick but the last. -/
theorem nmiPip_recognised_of_opens {n : Nat} {s : State} (ho : s.Opens) (h : Finishes (n + 1) (tick s)) (hn : n ≤ 8) :
    4 ≤ (ticks (n + 2) s).intr.nmiPip.toNat ↔ s.intr.nmiPip &&& 3 ≠ 0 ∨ ∃ k < n + 1, (ticks k s).nmiEdge = true := by
  have ht : (tick s).intr.nmiPip.toNat =
      2 * ((if s.nmiEdge then 2 * (s.intr.nmiPip.toNat / 2) + 1 else s.intr.nmiPip.toNat) % 4) := by
    rw [ho.nmiPip]
    exact firstTick_nmiPip _ _ _
  have hyoung : s.intr.nmiPip &&& 3 ≠ 0 ↔ s.intr.nmiPip.toNat % 4 ≠ 0 := by
    have h3 : (3 : Word).toNat = 2 ^ 2 - 1 := rfl
    rw [ne_eq, ← BitVec.toNat_inj, BitVec.toNat_and, h3, Nat.and_two_pow_sub_one_eq_mod]
    rfl
  have hpow : 2 ^ (n + 1) ≤ 2 ^ 9 := Nat.pow_le_pow_right (by decide) (by omega)
  have hroom : ((tick s).intr.nmiPip.toNat + 2) * 2 ^ (n + 1) ≤ 8 * 2 ^ 9 := Nat.mul_le_mul (by omega) hpow
  rw [exists_nmiEdge_succ, ← or_assoc]
  refine (h.nmiPip_recognised (by omega) (hroom.trans (by decide))).trans (or_congr ?_ Iff.rfl)
  rw [hyoung, ht]
  by_cases he : s.nmiEdge = true
  · rw [if_pos he]
    simp only [he, or_true, iff_true]
    omega
  · rw [if_neg he]
    simp only [he, Bool.false_eq_true, or_false]
    omega

/-- What a boundary looks at in the pipeline of NMI. -/
theorem nmiPip_and_iff (w : Word) : w &&& 0xFFFC ≠ 0 ↔ 4 ≤ w.toNat := by
  have hw : w &&& (0xFFFC : Word) = w >>> 2 <<< 2 := by
    rw [BitVec.shiftLeft_ushiftRight]
    rfl
  have hlt := w.isLt
  rw [hw, ne_eq, ← BitVec.toNat_inj, BitVec.toNat_shiftLeft, BitVec.toNat_ushiftRight, Nat.shiftRight_eq_div_pow, Nat.shiftLeft_eq]
  simp
  omega

end Sys2Proof.Machine
end

section
/-!
SUPPORT. A step from a boundary that nothing stalls is the ticks up to the fetch, counted.
-/
namespace Sys2Proof.Machine

/-- A run that has set up a fetch stays there. -/
theorem runTicks_of_done {prog : List Action} {operand : List (Option Byte)} {m n : Nat} {u : State}
    (h : (runTicks prog operand m u).sync = true) (hmn : m ≤ n) : runTicks prog operand n u = runTicks prog operand m u := by
  induction n, hmn using Nat.le_induction with
  | base => rfl
  | succ n _ ih => rw [runTicks_succ, ih, runTicks_done h]

/-- For so many cycles the run stands at sub-cycles of its opcode, given there what the bus has. -/
def GivenBus (code : Byte) (operand : List (Option Byte)) (u : State) (n : Nat) : Prop :=
  ∀ j < n, let v := runTicks (microprogramOf code) operand j u
    v.sync = false → v.irOpcode = code ∧ v.Fed (operand[v.subCycle]?.getD none)

/-- A sub-cycle that nothing stalls is a tick. -/
theorem cycle_eq_tick {u : State} (hu : u.Unstalled) (hs : u.sync = false) {data : Option Byte} (hd : u.Fed data) :
    cycle (microStep (microprogramOf u.irOpcode)) data u = tick u := by
  rw [cycle_of_fed hd, tick_of_unstalled hu, cycle_of_unstalled hu, cycle_of_unstalled hu, liveTick_platform, liveTick_platform,
    microTick_of_sync (by exact hs)]
  rfl

/-- A run goes tick by tick to its fetch. -/
theorem Finishes.runTicks_eq {m fuel : Nat} {u : State} {code : Byte} {operand : List (Option Byte)} (hf : Finishes m u)
    (hu : u.Unstalled) (hs : u.sync = false) (hfuel : m ≤ fuel) (hg : GivenBus code operand u fuel) :
    runTicks (microprogramOf code) operand fuel u = ticks m u := by
  have hticks : ∀ j ≤ m, runTicks (microprogramOf code) operand j u = ticks j u := by
    intro j
    induction j with
    | zero => exact fun _ => rfl
    | succ j ih =>
      intro hj
      have hv := ih (by omega)
      have hsync := hf.sync_eq hs j (by omega)
      obtain ⟨hcode, hfed⟩ := hg j (by omega) (hv ▸ hsync)
      rw [hv] at hcode hfed
      rw [runTicks_succ, hv, runTicks, if_neg (by simp [hsync]), runTicks, ticks_succ,
        ← cycle_eq_tick (hf.unstalled hu j (by omega)) hsync hfed, hcode]
  have hm := hticks m le_rfl
  rw [runTicks_of_done (hm ▸ hf.sync_done) hfuel, hm]

/-! ### The runs of the interrupt sequence and of an instruction -/

theorem givenBus_interrupt {u : State} (hu : u.ir = irAt 0 1) : GivenBus 0 [] u 6 := by
  intro j hj v hv
  have hir : v.ir = irAt 0 (1 + j) := runTicks_ir interruptTicks_ir hu hv
  exact ⟨irOpcode_of_ir hir (by omega), .of_none v⟩

/-- The run of an instruction, where the bus gives each later sub-cycle the byte that the run is given. -/
theorem State.Fetches.givenBus {s : State} {i : Instr} (h : s.Fetches i) (hj : isJam i = false) {operand : List (Option Byte)} {n : Nat}
    (hfed : ∀ j < n, let v := runTicks (microprogram i) operand j (enterCycle i s)
      v.sync = false → j < v.subCycle → v.Fed (operand[v.subCycle]?.getD none)) : GivenBus i.opcode operand (enterCycle i s) n := by
  intro j hjn
  rw [microprogramOf_opcode]
  intro v hv
  have hf := (obeys_microprogram hj).flows
  have hlen := hf.length_le
  rcases runTicks_progressed hf operand (h.enterCycle_progressed hj) j with hb | ⟨k, hjk, hk, -, hir, -⟩
  · exact absurd hb.1 (by simp [v, hv])
  · have hsub := subCycle_of_ir hir (by omega)
    exact ⟨irOpcode_of_ir hir (by omega), hfed j hjn hv (hsub.symm ▸ hjk)⟩

/-- An instruction that is no JAM runs its microprogram from its first cycle, given what the bus has. -/
theorem State.Fetches.exec_eq {s : State} {i : Instr} (h : s.Fetches i) (hj : isJam i = false) : ∃ operand,
    exec i s = .next (runTicks (microprogramOf i.opcode) operand ((microprogramOf i.opcode).length - 1) (enterCycle i s)) ∧
      GivenBus i.opcode operand (enterCycle i s) ((microprogramOf i.opcode).length - 1) := by
  rw [microprogramOf_opcode]
  by_cases hjsr : i.opcode = 0x20
  · obtain ⟨a, rfl⟩ := eq_jsr_of_opcode hjsr
    exact ⟨jsrReads a s, rfl, h.givenBus hj fun _ hjn hv _ => h.jsr_fed hjn hv⟩
  · exact ⟨operandReads i, exec_eq_runInstr_of_not_jsr hj hjsr s, h.givenBus hj fun j _ _ => h.operand_fed hjsr j⟩

/-- The first tick of the interrupt sequence, nothing stalling it. -/
theorem tick_eq_enterInterrupt {s : State} (hu : s.Unstalled) (hs : s.sync = true) (hr : recognises s = true) :
    tick s = cycle (fun c s => microStep interruptTicks c s.enterInterrupt) none s := by
  have hreq : (s.sampled (s.busInput none)).requests.any = true := by rw [← recognised_of_unstalled hu]; exact hr
  rw [tick_of_unstalled hu, cycle_of_unstalled hu, cycle_of_unstalled hu, liveTick_platform, liveTick_platform,
    microTick_of_recognised (by exact hs) hreq]

/-- A step from a boundary is the ticks up to the fetch. -/
theorem step_eq_ticks {s : State} {m : Nat} (hb : s.AtBoundary) (hu : s.Unstalled)
    (hjam : recognises s = false → isJam (fetched s) = false) (hat : (tick s).At (startCode s) 1) (hf : Finishes m (tick s))
    (hlen : m + 1 ≤ (microprogramOf (startCode s)).length) : step s = .next (ticks (m + 1) s) := by
  have hfuel : m ≤ (microprogramOf (startCode s)).length - 1 := by omega
  rw [step, if_pos hb.1]
  cases hr : recognises s with
  | true =>
    have hcode : startCode s = 0 := by rw [startCode, hr]; rfl
    rw [hcode] at hat hfuel
    rw [takeInterrupt, runFrom, ← tick_eq_enterInterrupt hu hb.1 hr]
    exact congrArg _ (hf.runTicks_eq hat.unstalled hat.sync hfuel (givenBus_interrupt hat.ir))
  | false =>
    have hcode : startCode s = (fetched s).opcode := by rw [startCode, hr]; rfl
    have hstart : s.Starts (fetched s) := ⟨hb, hu, hr, rfl⟩
    have hfetch : s.Fetches (fetched s) := ⟨hb.1, hr, rfl⟩
    obtain ⟨operand, hx, hg⟩ := hfetch.exec_eq (hjam hr)
    have hfirst : enterCycle (fetched s) s = tick s := hstart.tick_eq.symm
    rw [hfirst] at hx hg
    rw [hcode] at hfuel
    exact hx.trans (congrArg _ (hf.runTicks_eq hat.unstalled hat.sync hfuel hg))

end Sys2Proof.Machine
end

section
/-!
SUPPORT. How many ticks an instruction or a sequence takes that nothing stalls (70_reset_and_hazards.md R349, R350): straight microprograms.
-/
namespace Sys2Proof.Machine

/-- From this boundary the next fetch is set up `n` ticks after the first, by a microprogram of so many ticks at least. -/
structure State.RunsFor (s : State) (n : Nat) : Prop where
  opens : s.Opens
  started : (tick s).At (startCode s) 1
  finishes : Finishes n (tick s)
  enough : n + 1 ≤ (microprogramOf (startCode s)).length

/-- A straight microprogram takes a tick for each of its actions. -/
theorem runsFor_of_straight {s : State} (hb : s.AtBoundary) (hu : s.Unstalled) {act : Action} {rest : List Action}
    (hp : microprogramOf (startCode s) = act :: rest) (hs : Straight (act :: rest)) (hrest : rest ≠ []) (hn : rest.length + 1 ≤ 8) :
    s.RunsFor rest.length := by
  obtain ⟨next, rest, rfl⟩ := List.exists_cons_of_ne_nil hrest
  obtain ⟨hact, hnext⟩ := hs
  obtain ⟨hopens, hat⟩ := next_of_boundary hb hu (by rw [hp]; rfl) hact
  exact ⟨hopens, hat, hnext.finishes (by rw [hp]; rfl) (by omega) hat, by rw [hp]; rfl⟩

/-! ### Straight microprograms -/

/-- The mode looks whether its index crosses a page, to skip a tick if a read does not (40_execution.md R116, R119). -/
def Mode.forks (m : Mode) : Bool :=
  match m with
  | .abx | .aby | .idy => true
  | .none | .imm | .zp | .zpx | .zpy | .abs | .idx | .jmp | .jsr | .inv => false

/-- The instruction reads at an indexed address that may cross a page. -/
def readsIndexed (i : Instr) : Bool := decide (accessOf i = .read) && (modeOf i).forks

theorem passes_indexTick {k : Access} (hk : k ≠ .read) (index : State → Byte) : Passes (indexTick index k) := by
  constructor <;> intro c s <;> rw [indexTick, if_neg fun h => hk h.1]

theorem passes_addressing {m : Mode} {k : Access} (h : m.forks = true → k ≠ .read) : ∀ act ∈ addressing m k, Passes act := by
  cases m <;> simp only [addressing, List.forall_mem_cons, List.not_mem_nil, false_implies, implies_true, and_true]
  case none | imm | jsr => exact {}
  case zp | jmp => exact ⟨{}, {}⟩
  case zpx | zpy | abs => exact ⟨{}, {}, {}⟩
  case idx => exact ⟨{}, {}, {}, {}, {}⟩
  case abx | aby => exact ⟨{}, {}, passes_indexTick (h rfl) _, {}⟩
  case idy => exact ⟨{}, {}, {}, passes_indexTick (h rfl) _, {}⟩

theorem passes_appendLast {act : Action} (ha : Passes act) {l : List Action} (h : ∀ t ∈ l, Passes t) :
    ∀ t ∈ appendLast act l, Passes t := by
  match l with
  | [] => exact h
  | [last] => exact List.forall_mem_singleton.mpr (ha.comp (List.forall_mem_singleton.mp h))
  | t :: next :: rest =>
    obtain ⟨ht, hrest⟩ := List.forall_mem_cons.mp h
    exact List.forall_mem_cons.mpr ⟨ht, passes_appendLast ha hrest⟩

theorem straight_readTicks {op : Action} (hop : Concludes fun c s => (op c s).fetch) {m : Mode} (hm : m.forks = false) :
    Straight (readTicks m op) :=
  .append (passes_addressing (by simp [hm])) hop

theorem straight_impliedTicks {op : State → State} (hop : Concludes fun _ s => (op s).fetch) : Straight (impliedTicks op) :=
  .append (passes_addressing (m := .none) (by simp [Mode.forks])) hop

theorem straight_writeTicks {store : State → State} (hs : Passes fun _ => store) (m : Mode) : Straight (writeTicks m store) :=
  .append (passes_appendLast hs (passes_addressing fun _ => by decide)) (Concludes.mk : Concludes fetchTick)

theorem straight_modifyTicks {f : Byte → State → Byte × State} (hf : Passes fun c s => (f c.dbus s).2) (m : Mode) :
    Straight (modifyTicks m f) := by
  have hwrite : Passes (writeBackTick f) :=
    ⟨fun _ s => hf.sync ⟨lo s.ad, false⟩ s, fun _ s => hf.ir ⟨lo s.ad, false⟩ s, fun _ s => hf.intr ⟨lo s.ad, false⟩ s,
      fun _ s => hf.lines ⟨lo s.ad, false⟩ s⟩
  rw [modifyTicks_eq]
  exact .append (passes_addressing fun _ => by decide) ⟨{}, hwrite, {}⟩

theorem straight_pushTicks (v : State → Byte) : Straight (pushTicks v) :=
  .append (passes_addressing (m := .none) (by simp [Mode.forks])) ⟨{}, {}⟩

theorem straight_pullTicks {op : Action} (hop : Concludes fun c s => (op c s).fetch) : Straight (pullTicks op) :=
  .append (passes_addressing (m := .none) (by simp [Mode.forks])) ⟨{}, {}, hop⟩

theorem passes_pushUnlessReset (v : State → Byte) : Passes fun _ s => s.pushUnlessReset (v s) := by
  constructor <;> intro c s <;> simp only [State.pushUnlessReset] <;> split <;> rfl

theorem straight_interruptTicks : Straight interruptTicks := by
  have hhigh : Passes pushPcHighTick := by
    rw [funext₂ pushPcHighTick_eq]
    exact (passes_pushUnlessReset fun s => hi s.pc).comp (last := fun _ s => { s with pc := savedPc s.brk s.pc }) {}
  have hlow : Passes pushPcLowTick := passes_pushUnlessReset fun s => lo s.pc
  have hpush := passes_pushUnlessReset fun s => pushedStatus s.p
  have hstatus : Passes pushStatusTick := ⟨hpush.sync, hpush.ir, hpush.intr, hpush.lines⟩
  exact ⟨{}, hhigh, hlow, hstatus, {}, {}, {}⟩

/-! Each instruction with an operand in turn, by its mode and its operation. -/

theorem readTicks_concludes {i : Instr} (ho : operatesOnOperand i = true) (ha : accessOf i = .read) :
    ∃ op, microprogram i = readTicks (modeOf i) op ∧ Concludes fun c s => (op c s).fetch := by
  cases i <;> cases ha <;> cases ho <;> dsimp only [microprogram] <;> exact ⟨_, rfl, {}⟩

theorem writeTicks_passes {i : Instr} (ho : operatesOnOperand i = true) (ha : accessOf i = .write) :
    ∃ store, microprogram i = writeTicks (modeOf i) store ∧ Passes fun _ => store := by
  cases i <;> cases ha <;> cases ho <;> dsimp only [microprogram] <;> exact ⟨_, rfl, {}⟩

theorem modifyTicks_passes {i : Instr} (ha : accessOf i = .readWrite) :
    ∃ f, microprogram i = modifyTicks (modeOf i) f ∧ Passes fun c s => (f c.dbus s).2 := by
  cases i <;> cases ha <;> dsimp only [microprogram] <;> exact ⟨_, rfl, {}⟩

theorem straight_of_operates {i : Instr} (ho : operatesOnOperand i = true) (hx : readsIndexed i = false) :
    Straight (microprogram i) := by
  match ha : accessOf i with
  | .none => exact absurd ha (accessOf_ne_none ho)
  | .read =>
    obtain ⟨op, he, hop⟩ := readTicks_concludes ho ha
    rw [he]
    exact straight_readTicks hop (by simpa [readsIndexed, ha] using hx)
  | .write =>
    obtain ⟨store, he, hs⟩ := writeTicks_passes ho ha
    rw [he]
    exact straight_writeTicks hs _
  | .readWrite =>
    obtain ⟨f, he, hf⟩ := modifyTicks_passes ha
    rw [he]
    exact straight_modifyTicks hf _

theorem straight_of_not_operates {i : Instr} (ho : operatesOnOperand i = false) (hj : isJam i = false) (hb : branchOffset? i = none) :
    Straight (microprogram i) := by
  cases i <;> cases ho <;> cases hj <;> cases hb <;> dsimp only [microprogram]
  case brk => exact straight_interruptTicks
  case rti => exact ⟨{}, {}, {}, {}, {}, {}⟩
  case jsr => exact ⟨{}, {}, {}, {}, {}, {}⟩
  case rts => exact ⟨{}, {}, {}, {}, {}, {}⟩
  case jmpAbs => exact ⟨{}, {}, {}⟩
  case jmpInd => exact ⟨{}, {}, {}, {}, {}⟩
  case pha | php => exact straight_pushTicks _
  case pla | plp => exact straight_pullTicks {}
  all_goals exact straight_impliedTicks {}

/-- The microprogram of the instruction has no fork: it is no JAM and no branch, and does not read at an address that may cross a page. -/
structure Unforked (i : Instr) : Prop where
  jam : isJam i = false
  branch : branchOffset? i = none
  index : readsIndexed i = false

theorem Unforked.straight {i : Instr} (h : Unforked i) : Straight (microprogram i) := by
  cases ho : operatesOnOperand i with
  | true => exact straight_of_operates ho h.index
  | false => exact straight_of_not_operates ho h.jam h.branch

/-- The table counts the ticks of such a microprogram (70_reset_and_hazards.md R349). -/
theorem Unforked.cyclesOf_eq {i : Instr} (h : Unforked i) (s : State) : cyclesOf i s = (microprogram i).length := by
  obtain ⟨hj, hb, hx⟩ := h
  cases i <;> cases hj <;> cases hb <;> cases hx <;> rfl

/-- A microprogram has two ticks at least. -/
theorem microprogram_eq_cons (i : Instr) : ∃ act next rest, microprogram i = act :: next :: rest := by
  cases i <;> exact ⟨_, _, _, rfl⟩

end Sys2Proof.Machine
end

section
/-!
SUPPORT. How many ticks an instruction takes that nothing stalls: reads whose index may cross a page, and branches (70_reset_and_hazards.md
R350, 44_control_stack.md R240).
-/
namespace Sys2Proof.Machine

/-! ### States that have written no register but PC and AD -/

/-- The core stands at a sub-cycle, nothing will stall it, and of the registers its run has written PC and AD alone. -/
structure State.During (u s : State) (code : Byte) (k : Nat) (pc ad addr : Word) : Prop where
  unstalled : u.Unstalled
  eq : ∃ d n ks, u = (s.during code k pc ad addr d).withEnv n ks

section
variable {u s : State} {code : Byte} {k : Nat} {pc ad addr : Word} (h : u.During s code k pc ad addr)
include h

theorem State.During.toAt : u.At code k := by
  obtain ⟨hu, d, n, ks, rfl⟩ := h
  exact ⟨hu, rfl, rfl⟩

/-- What the action of the coming tick sees, and the state it is given. -/
theorem State.During.given_eq : ∃ d n, u.seen = { dbus := s.readByte addr, res := u.line.res } ∧
    u.given code k = (s.during code (k + 1) pc ad addr d).withEnv n u.lines := by
  obtain ⟨hu, d, n, ks, rfl⟩ := h
  exact ⟨s.readByte addr, n.sample (ks.headD Lines.idle) (s.flag .i), rfl, rfl⟩

variable (hk : k < 8) {act : Action} (ha : (microprogramOf code)[k]? = some act)
include hk ha

/-- A tick that goes on to sub-cycle `j`. -/
theorem State.During.next {j : Nat} {pc' ad' addr' : Word}
    (hact : ∀ res d n ks, act { dbus := s.readByte addr, res := res } ((s.during code (k + 1) pc ad addr d).withEnv n ks) =
      (s.during code j pc' ad' addr' d).withEnv n ks) : u.Ages ∧ (tick u).During s code j pc' ad' addr' := by
  obtain ⟨d, n, hseen, hgiven⟩ := h.given_eq
  have ht : act u.seen (u.given code k) = (s.during code j pc' ad' addr' d).withEnv n u.lines := by rw [hseen, hgiven, hact]
  have hages := h.toAt.ages hk ha (by rw [ht, hgiven]; rfl) (by rw [ht]; rfl)
  exact ⟨hages, hages.unstalled h.unstalled, d, n.shift, u.lines.tail, by rw [h.toAt.tick_eq hk ha, ht]; rfl⟩

/-- A tick that sets up the fetch. -/
theorem State.During.finishes
    (hact : ∀ res d n ks, ∃ t : State, t.intr = n ∧ t.lines = ks ∧
      act { dbus := s.readByte addr, res := res } ((s.during code (k + 1) pc ad addr d).withEnv n ks) = t.fetch) : Finishes 1 u := by
  obtain ⟨d, n, hseen, hgiven⟩ := h.given_eq
  obtain ⟨t, hintr, hlines, ht⟩ := hact u.line.res d n u.lines
  rw [← hseen, ← hgiven] at ht
  refine .fetch (h.toAt.ages hk ha (by rw [ht, hgiven]; exact hintr) (by rw [ht]; exact hlines)) ?_
  rw [h.toAt.tick_eq hk ha, ht]
  rfl

end

/-! ### From the boundary -/

section
variable {s : State} {i : Instr}

theorem State.Starts.startCode_eq (hs : s.Starts i) : startCode s = i.opcode := by
  rw [startCode, hs.unrequested, hs.fetched]
  rfl

/-- The boundary of an instruction that reads an operand byte in its T0. -/
theorem State.Starts.during (hs : s.Starts i) {rest : List Action} (hp : microprogram i = operandTick :: rest) :
    s.Opens ∧ (tick s).During s i.opcode 1 (s.pc + 2) s.ad (s.pc + 1) := by
  have hact : (microprogramOf (startCode s))[0]? = some operandTick := by rw [hs.startCode_eq, microprogramOf_opcode, hp]; rfl
  obtain ⟨hopens, hat⟩ := next_of_boundary hs.boundary hs.unstalled hact {}
  obtain ⟨n, ks, d, he⟩ := enterCycle_of_operandTick hp s
  exact ⟨hopens, hat.unstalled, d, n, ks, hs.tick_eq.trans he⟩

/-- An instruction that reads an operand byte in its T0 runs for as many ticks as it takes from there. -/
theorem State.Starts.runsFor (hs : s.Starts i) {rest : List Action} (hp : microprogram i = operandTick :: rest) {n : Nat}
    (hf : (tick s).During s i.opcode 1 (s.pc + 2) s.ad (s.pc + 1) → Finishes n (tick s)) (hn : n ≤ rest.length) : s.RunsFor n := by
  obtain ⟨hopens, hd⟩ := hs.during hp
  refine ⟨hopens, hs.startCode_eq ▸ hd.toAt, hf hd, ?_⟩
  rw [hs.startCode_eq, microprogramOf_opcode, hp]
  exact Nat.succ_le_succ hn

end

/-! ### Reads whose index may cross a page -/

/-- The tick that looks whether the index of a read crosses a page, and skips the next sub-cycle where it does not. -/
theorem indexTick_read_during {index : State → Byte} (hindex : index = State.x ∨ index = State.y) (c : Seen) (s : State) (code : Byte)
    (k : Nat) (pc addr : Word) {ad base : Word} (hbase : ad ||| (zext16 c.dbus <<< 8) = base) (d : Byte) (n : Intr) (ks : List Lines) :
    indexTick index .read c ((s.during code k pc ad addr d).withEnv n ks) =
      (s.during code (if crossesPage base (index s) then k else k + 1) pc base (pageAdd base (index s)) d).withEnv n ks := by
  subst hbase
  by_cases hc : crossesPage (ad ||| (zext16 c.dbus <<< 8)) (index s) = true
  · rw [if_pos hc]
    rcases hindex with rfl | rfl <;> exact if_neg fun h => h.2 hc
  · rw [if_neg hc, State.during.eq_def (k := k + 1), ← irAt_succ]
    rcases hindex with rfl | rfl <;> exact if_pos ⟨rfl, hc⟩

/-- From that tick on: the tick that carries and the fetch where the index crosses, the fetch alone where it does not. -/
theorem State.During.finishes_index {u s : State} {code : Byte} {k : Nat} {pc ad addr : Word} (h : u.During s code k pc ad addr)
    {index : State → Byte} (hindex : index = State.x ∨ index = State.y) {last : Action} (hlast : Concludes last)
    (hp : (microprogramOf code).drop k = [indexTick index .read, carryTick index, last]) (hk : k ≤ 5) {base : Word}
    (hbase : ad ||| (zext16 (s.readByte addr) <<< 8) = base) : Finishes (if crossesPage base (index s) then 3 else 2) u := by
  have hact : (microprogramOf code)[k]? = some (indexTick index .read) := by rw [← List.head?_drop, hp]; rfl
  have hdrop : ∀ j, (microprogramOf code).drop (k + j) = [indexTick index .read, carryTick index, last].drop j := fun j => by
    rw [← List.drop_drop, hp]
  obtain ⟨hages, hnext⟩ := h.next (by omega) hact fun res d n ks =>
    indexTick_read_during hindex { dbus := s.readByte addr, res := res } s code (k + 1) pc addr hbase d n ks
  by_cases hc : crossesPage base (index s) = true
  · rw [if_pos hc] at hnext ⊢
    have hrest : Straight [carryTick index, last] := ⟨{}, hlast⟩
    exact .next hages hnext.toAt.sync (hrest.finishes (hdrop 1) (by simp; omega) hnext.toAt)
  · rw [if_neg hc] at hnext ⊢
    have hrest : Straight [last] := hlast
    exact .next hages hnext.toAt.sync (hrest.finishes (hdrop 2) (by simp; omega) hnext.toAt)

section
variable {s : State} {i : Instr}

/-- An absolute indexed read. -/
theorem State.Starts.runsFor_absolute (hs : s.Starts i) {index : State → Byte} (hindex : index = State.x ∨ index = State.y) {last : Action}
    (hlast : Concludes last)
    (hp : microprogram i = [operandTick, secondOperandTick, indexTick index .read, carryTick index, last]) {w : Word}
    (hw : operandReads i = [none, some (lo w), some (hi w)]) : s.RunsFor ((if crossesPage w (index s) then 3 else 2) + 1) := by
  have hlo : s.readByte (s.pc + 1) = lo w := by simpa using hs.operand_eq (k := 0) (v := lo w) (by rw [hw]; rfl)
  have hhi : s.readByte (s.pc + 2) = hi w := by simpa using hs.operand_eq (k := 1) (v := hi w) (by rw [hw]; rfl)
  have hprog : microprogramOf i.opcode = _ := (microprogramOf_opcode i).trans hp
  refine hs.runsFor hp (fun h1 => ?_) (by split <;> simp)
  obtain ⟨hages, h2⟩ := h1.next (j := 2) (pc' := s.pc + 2 + 1) (ad' := zext16 (s.readByte (s.pc + 1))) (addr' := s.pc + 2) (by decide)
    (act := secondOperandTick) (by rw [hprog]; rfl) fun _ _ _ _ => rfl
  refine .next hages h2.toAt.sync (h2.finishes_index hindex hlast (by rw [hprog]; rfl) (by decide) ?_)
  rw [hlo, hhi, lowHigh, mkWord_hi_lo]

/-- A read at a zero-page pointer, indexed by Y. -/
theorem State.Starts.runsFor_indirect (hs : s.Starts i) {last : Action} (hlast : Concludes last)
    (hp : microprogram i =
      [operandTick, zeroPageTick, pointerHighTick, indexTick State.y .read, carryTick State.y, last]) {z : Byte}
    (hz : operandReads i = [none, some z]) : s.RunsFor ((if crossesPage (zeroPagePointer z s) s.y then 3 else 2) + 1 + 1) := by
  have hlo : s.readByte (s.pc + 1) = z := by simpa using hs.operand_eq (k := 0) (v := z) (by rw [hz]; rfl)
  have hprog : microprogramOf i.opcode = _ := (microprogramOf_opcode i).trans hp
  refine hs.runsFor hp (fun h1 => ?_) (by split <;> simp)
  obtain ⟨hages1, h2⟩ := h1.next (j := 2) (pc' := s.pc + 2) (ad' := zext16 (s.readByte (s.pc + 1)))
    (addr' := zext16 (s.readByte (s.pc + 1))) (by decide) (act := zeroPageTick) (by rw [hprog]; rfl) fun _ _ _ _ => rfl
  obtain ⟨hages2, h3⟩ := h2.next (j := 3) (pc' := s.pc + 2) (ad' := zext16 (s.readByte (zext16 (s.readByte (s.pc + 1)))))
    (addr' := zeroPageAdd (zext16 (s.readByte (s.pc + 1))) 1) (by decide) (act := pointerHighTick) (by rw [hprog]; rfl) fun _ _ _ _ => rfl
  refine .next hages1 h2.toAt.sync (.next hages2 h3.toAt.sync
    (h3.finishes_index (.inr rfl) hlast (by rw [hprog]; rfl) (by decide) ?_))
  rw [hlo, zeroPageAdd_zext, lowHigh]
  rfl

/-- The table counts a tick more for them where the index crosses (70_reset_and_hazards.md R350). -/
theorem cyclesOf_of_readsIndexed (hx : readsIndexed i = true) (s : State) :
    cyclesOf i s = if indexCrosses i s then (microprogram i).length else (microprogram i).length - 1 := by
  cases i <;> cases hx <;> rfl

theorem operates_of_readsIndexed (hx : readsIndexed i = true) : operatesOnOperand i = true := by
  cases i <;> cases hx <;> rfl

theorem State.Starts.runsFor_of_readsIndexed (hs : s.Starts i) (hx : readsIndexed i = true) :
    ∃ n, cyclesOf i s = n + 1 ∧ s.RunsFor n := by
  have ho := operates_of_readsIndexed hx
  have hop := operandReads_eq ho
  obtain ⟨ha, hm⟩ : accessOf i = .read ∧ (modeOf i).forks = true := by simpa [readsIndexed] using hx
  obtain ⟨op, hp, hlast⟩ := readTicks_concludes ho ha
  rw [cyclesOf_of_readsIndexed hx]
  cases hmode : modeOf i <;> rw [hmode] at hm hp hop <;> cases hm
  case abx =>
    refine ⟨_, ?_, hs.runsFor_absolute (.inl rfl) hlast hp hop⟩
    simp only [hp, indexCrosses, hmode]
    split <;> rfl
  case aby =>
    refine ⟨_, ?_, hs.runsFor_absolute (.inr rfl) hlast hp hop⟩
    simp only [hp, indexCrosses, hmode]
    split <;> rfl
  case idy =>
    refine ⟨_, ?_, hs.runsFor_indirect hlast hp hop⟩
    simp only [hp, indexCrosses, hmode]
    split <;> rfl

end

/-! ### Branches -/

/-- The instruction is a branch by this offset where the flag has this value. For a concrete branch each field is true by `rfl`, which is
its default. -/
structure BranchesOn (i : Instr) (f : Flag) (v : Bool) (o : Int) : Prop where
  program : microprogram i = [operandTick, branchTargetTick (flagIs f v), branchPageTick, branchCrossTick] := by exact rfl
  operand : operandReads i = [none, some (offsetByte o)] := by exact rfl
  inPage : ∀ s, branchesInPage i s = (flagIs f v s && samePage (branchTarget o s) (s.pc + 2)) := by exact fun _ => rfl
  cycles : ∀ s, cyclesOf i s = if !flagIs f v s then 2 else if samePage (branchTarget o s) (s.pc + 2) then 3 else 4 := by
    exact fun _ => rfl

/-- The eight branches, each with its flag and the value branched on (44_control_stack.md R242-R249). -/
theorem branchesOn_of_offset {i : Instr} {o : Int} (ho : branchOffset? i = some o) : ∃ f v, BranchesOn i f v o := by
  cases i <;> cases ho
  case bpl => exact ⟨.n, false, {}⟩
  case bmi => exact ⟨.n, true, {}⟩
  case bvc => exact ⟨.v, false, {}⟩
  case bvs => exact ⟨.v, true, {}⟩
  case bcc => exact ⟨.c, false, {}⟩
  case bcs => exact ⟨.c, true, {}⟩
  case bne => exact ⟨.z, false, {}⟩
  case beq => exact ⟨.z, true, {}⟩

section
variable {s : State} {i : Instr} {f : Flag} {v : Bool} {o : Int} (hs : s.Starts i) (hi : BranchesOn i f v o)
include hs hi

theorem State.Starts.runsFor_not_taken (hf : s.flag f ≠ v) : s.RunsFor 1 := by
  have hprog : microprogramOf i.opcode = _ := (microprogramOf_opcode i).trans hi.program
  refine hs.runsFor hi.program (fun h1 => ?_) (by simp)
  exact h1.finishes (by decide) (act := branchTargetTick (flagIs f v)) (by rw [hprog]; rfl) fun res d n ks =>
    ⟨_, rfl, rfl, branchTargetTick_of_not_taken f v _ _ (by exact hf)⟩

theorem State.Starts.runsFor_crossing (hf : s.flag f = v) (hpage : samePage (branchTarget o s) (s.pc + 2) = false) : s.RunsFor 3 := by
  have hoff : s.readByte (s.pc + 1) = offsetByte o := by simpa using hs.operand_eq (k := 0) (v := offsetByte o) (by rw [hi.operand]; rfl)
  have hprog : microprogramOf i.opcode = _ := (microprogramOf_opcode i).trans hi.program
  refine hs.runsFor hi.program (fun h1 => ?_) (by simp)
  obtain ⟨hages1, h2⟩ := h1.next (j := 2) (pc' := s.pc + 2) (ad' := branchTarget o s) (addr' := s.pc + 2) (by decide)
    (act := branchTargetTick (flagIs f v)) (by rw [hprog]; rfl) fun res d n ks => by
      rw [branchTargetTick_of_taken f v _ _ (by exact hf), hoff]
      rfl
  obtain ⟨hages2, h3⟩ := h2.next (j := 3) (pc' := s.pc + 2) (ad' := branchTarget o s)
    (addr' := ((s.pc + 2) &&& 0xFF00) ||| (branchTarget o s &&& 0x00FF)) (by decide) (act := branchPageTick) (by rw [hprog]; rfl)
    fun res d n ks => branchPageTick_of_crosses _ _ (by exact hpage)
  have hrest : Straight [branchCrossTick] := Concludes.mk
  exact .next hages1 h2.toAt.sync (.next hages2 h3.toAt.sync (hrest.finishes (by rw [hprog]; rfl) (by decide) h3.toAt))

end

theorem State.Starts.runsFor_of_branch {s : State} {i : Instr} {o : Int} (hs : s.Starts i) (ho : branchOffset? i = some o)
    (hpage : branchesInPage i s = false) : ∃ n, cyclesOf i s = n + 1 ∧ s.RunsFor n := by
  obtain ⟨f, v, hi⟩ := branchesOn_of_offset ho
  rw [hi.inPage] at hpage
  by_cases hf : s.flag f = v
  · have htaken := (flagIs_iff f v s).mpr hf
    rw [htaken, Bool.true_and] at hpage
    exact ⟨3, by rw [hi.cycles, htaken, hpage]; rfl, hs.runsFor_crossing hi hf hpage⟩
  · have htaken : flagIs f v s = false := Bool.eq_false_iff.mpr (mt (flagIs_iff f v s).mp hf)
    exact ⟨1, by rw [hi.cycles, htaken]; rfl, hs.runsFor_not_taken hi hf⟩

end Sys2Proof.Machine
end

section
/-!
When an interrupt is recognised: O58.
-/
namespace Sys2Proof.Machine

/-- An instruction whose microprogram has no fork takes the ticks that the table counts. -/
theorem State.Starts.runsFor_of_unforked {s : State} {i : Instr} (hs : s.Starts i) (h : Unforked i) :
    ∃ n, cyclesOf i s = n + 1 ∧ s.RunsFor n := by
  obtain ⟨act, next, rest, hp⟩ := microprogram_eq_cons i
  have hprog : microprogramOf (startCode s) = act :: next :: rest := by rw [hs.startCode_eq, microprogramOf_opcode, hp]
  have hlen := (obeys_microprogram h.jam).flows.length_le
  rw [hp] at hlen
  refine ⟨(next :: rest).length, by rw [h.cyclesOf_eq, hp]; rfl, ?_⟩
  exact runsFor_of_straight hs.boundary hs.unstalled hprog (hp ▸ h.straight) (List.cons_ne_nil _ _) hlen

/-- Every instruction but a JAM and a taken branch in its page takes the ticks that the table counts, and no tick of it but the first does
more to the pipelines than to sample and to move them. -/
theorem State.Starts.runsFor_cyclesOf {s : State} {i : Instr} (hs : s.Starts i) (hj : isJam i = false) (hpage : branchesInPage i s = false) :
    ∃ n, cyclesOf i s = n + 1 ∧ s.RunsFor n := by
  cases hb : branchOffset? i with
  | some o => exact hs.runsFor_of_branch hb hpage
  | none =>
    cases hx : readsIndexed i with
    | true => exact hs.runsFor_of_readsIndexed hx
    | false => exact hs.runsFor_of_unforked ⟨hj, hb, hx⟩

/-- The interrupt sequence takes seven ticks. -/
theorem runsFor_interrupt {s : State} (hb : s.AtBoundary) (hu : s.Unstalled) (hr : recognises s = true) : s.RunsFor 6 := by
  have hcode : startCode s = 0 := by rw [startCode, hr]; rfl
  have hprog : microprogramOf (startCode s) = interruptTicks := by rw [hcode]; rfl
  exact runsFor_of_straight hb hu hprog straight_interruptTicks (List.cons_ne_nil _ _) (by decide)

/-- The ticks of the coming step, and the run of as many. -/
theorem runsFor_step {s : State} (hb : s.AtBoundary) (hu : s.Unstalled)
    (h : recognises s = false → isJam (fetched s) = false ∧ branchesInPage (fetched s) s = false) :
    ∃ n, (if recognises s then 7 else cyclesOf (fetched s) s) = n + 1 ∧ s.RunsFor n := by
  cases hr : recognises s with
  | true => exact ⟨6, rfl, runsFor_interrupt hb hu hr⟩
  | false =>
    obtain ⟨hj, hpage⟩ := h hr
    have hs : s.Starts (fetched s) := ⟨hb, hu, hr, rfl⟩
    exact hs.runsFor_cyclesOf hj hpage

/-- A step from a boundary that runs no JAM comes to the next boundary. -/
theorem step_boundary {s t : State} (hb : s.AtBoundary) (hj : recognises s = false → isJam (fetched s) = false) (h : step s = .next t) :
    t.AtBoundary := by
  rw [step, if_pos hb.1] at h
  cases hr : recognises s with
  | true =>
    rw [hr] at h
    obtain rfl := Host.Outcome.next.inj h
    exact (takeInterrupt_arch hb).2
  | false =>
    rw [hr] at h
    exact exec_boundary (hj hr) hb h

theorem Finishes.pos {n : Nat} {u : State} (h : Finishes n u) : 0 < n := by
  cases h <;> omega

/-- IR counts the ticks of every microprogram (10_state.md R34). -/
theorem length_microprogramOf_le (code : Byte) : (microprogramOf code).length ≤ 8 := by
  rw [microprogramOf]
  cases hj : isJam (decodeInstr code 0 0) with
  | true =>
    rw [microprogram_jam hj]
    decide
  | false => exact (obeys_microprogram hj).flows.length_le

theorem nmiEdge_iff (s : State) : s.nmiEdge = true ↔ s.line.nmi = true ∧ s.intr.nmiPrev = false := by
  rw [State.nmiEdge, Bool.and_eq_true, Bool.not_eq_true']

/-- Settles O58: no tick of the step but the first does more to the pipelines than to sample and to move them, so each sample has moved by as
many places as there were ticks since. -/
theorem irqRecognitionTick : Obligations.IrqRecognitionTick := by
  intro s hb hu hirq h
  obtain ⟨k, hn, hopens, hat, hf, hlen⟩ := runsFor_step hb hu h
  obtain ⟨m, rfl⟩ : ∃ m, k = m + 1 := ⟨k - 1, (Nat.sub_add_cancel hf.pos).symm⟩
  rw [hn]
  intro n t
  have hjam : recognises s = false → isJam (fetched s) = false := fun hr => (h hr).1
  have hstep : step s = .next t := step_eq_ticks hb hu hjam hat hf hlen
  have hut : t.Unstalled := hf.unstalled hat.unstalled (m + 1) le_rfl
  have hbrk : t.brk = BrkFlags.empty := (step_boundary hb hjam hstep).brk_eq
  have hm : m ≤ 8 := by
    have := length_microprogramOf_le (startCode s)
    omega
  refine ⟨hstep, Nat.le_add_left 2 m, ?irq, ?nmi⟩
  case irq =>
    rw [recognised_irq hut hbrk]
    exact irqPip_two_of_opens hopens hf hirq
  case nmi =>
    rw [recognised_nmi hut hbrk, decide_eq_true_eq, nmiPip_and_iff]
    simp only [← nmiEdge_iff]
    exact nmiPip_recognised_of_opens hopens hf hm

end Sys2Proof.Machine
end

section
/-!
How many ticks every instruction takes: O10.
-/
namespace Sys2Proof.Machine

/-! ### Runs that come to their fetch -/

/-- So many ticks from here the next fetch is set up, and at no sub-cycle before it will the core be stalled. -/
structure State.FetchesAfter (u : State) (n : Nat) : Prop where
  before : ∀ k < n, (ticks k u).Unstalled ∧ (ticks k u).sync = false
  done : (ticks n u).sync = true

theorem Finishes.fetchesAfter {n : Nat} {u : State} {code : Byte} {k : Nat} (h : Finishes n u) (hu : u.At code k) : u.FetchesAfter n where
  before j hj := ⟨h.unstalled hu.unstalled j hj.le, h.sync_eq hu.sync j hj⟩
  done := h.sync_done

theorem State.FetchesAfter.of_tick {n : Nat} {u : State} {code : Byte} {k : Nat} (hu : u.At code k) (h : (tick u).FetchesAfter n) :
    u.FetchesAfter (n + 1) where
  before
    | 0, _ => ⟨hu.unstalled, hu.sync⟩
    | j + 1, hj => h.before j (by omega)
  done := h.done

/-- Sub-cycles that nothing stalls are ticks, where the bus has the bytes that their run is given. -/
theorem GivenBus.runTicks_eq {code : Byte} {operand : List (Option Byte)} {u : State} {n : Nat} (hg : GivenBus code operand u n)
    (hu : ∀ k < n, (ticks k u).Unstalled ∧ (ticks k u).sync = false) : runTicks (microprogramOf code) operand n u = ticks n u := by
  induction n with
  | zero => rfl
  | succ n ih =>
    have hv := ih (fun j hj => hg j (by omega)) fun k hk => hu k (by omega)
    obtain ⟨hready, hsync⟩ := hu n (by omega)
    obtain ⟨hcode, hfed⟩ := hg n (by omega) (hv ▸ hsync)
    rw [hv] at hcode hfed
    rw [runTicks_succ, hv, runTicks, if_neg (by simp [hsync]), runTicks, ticks_succ, ← cycle_eq_tick hready hsync hfed, hcode]

section
variable {s : State} {i : Instr} (hs : s.Starts i)
include hs

/-- A step that runs an instruction is the ticks up to its fetch. -/
theorem State.Starts.step_eq_ticks (hj : isJam i = false) {n : Nat} (hf : (tick s).FetchesAfter n)
    (hn : n + 1 ≤ (microprogram i).length) : step s = .next (ticks (n + 1) s) := by
  have hfetch : s.Fetches i := ⟨hs.boundary.1, hs.unrequested, hs.fetched⟩
  have hfirst : enterCycle i s = tick s := hs.tick_eq.symm
  obtain ⟨operand, hx, hg⟩ := hfetch.exec_eq hj
  rw [microprogramOf_opcode, hfirst] at hx hg
  have hrun : runTicks (microprogram i) operand n (tick s) = ticks n (tick s) := by
    rw [← microprogramOf_opcode]
    exact GivenBus.runTicks_eq (fun j hj => hg j (by omega)) hf.before
  rw [step, if_pos hs.boundary.1, if_neg (by simp [hs.unrequested]), hs.fetched, hx,
    runTicks_of_done (hrun ▸ hf.done) (by omega), hrun]
  rfl

/-! ### A taken branch in its page -/

/-- It takes three ticks: its third sets up the fetch. -/
theorem State.Starts.fetchesAfter_inPage {f : Flag} {v : Bool} {o : Int} (hi : BranchesOn i f v o) (hf : s.flag f = v)
    (hpage : samePage (branchTarget o s) (s.pc + 2) = true) : (tick s).FetchesAfter 2 := by
  have hoff : s.readByte (s.pc + 1) = offsetByte o := by simpa using hs.operand_eq (k := 0) (v := offsetByte o) (by rw [hi.operand]; rfl)
  have hprog : microprogramOf i.opcode = _ := (microprogramOf_opcode i).trans hi.program
  obtain ⟨-, h1⟩ := hs.during hi.program
  obtain ⟨-, h2⟩ := h1.next (j := 2) (pc' := s.pc + 2) (ad' := branchTarget o s) (addr' := s.pc + 2) (by decide)
    (act := branchTargetTick (flagIs f v)) (by rw [hprog]; rfl) fun res d n ks => by
      rw [branchTargetTick_of_taken f v _ _ (by exact hf), hoff]
      rfl
  have hlast : (tick (tick (tick s))).sync = true := by
    obtain ⟨d, n, -, hgiven⟩ := h2.given_eq
    rw [h2.toAt.tick_eq (act := branchPageTick) (by decide) (by rw [hprog]; rfl), hgiven,
      branchPageTick_of_samePage _ _ (by exact hpage)]
    rfl
  exact .of_tick h1.toAt (.of_tick h2.toAt ⟨fun _ hk => absurd hk (Nat.not_lt_zero _), hlast⟩)

/-! ### Every instruction -/

/-- An instruction that is no JAM comes to its fetch in as many ticks as the table counts, and has as many in its microprogram. -/
theorem State.Starts.fetchesAfter_cyclesOf (hj : isJam i = false) :
    ∃ n, cyclesOf i s = n + 1 ∧ (tick s).FetchesAfter n ∧ n + 1 ≤ (microprogram i).length := by
  cases hpage : branchesInPage i s with
  | false =>
    obtain ⟨n, hn, -, hat, hf, hlen⟩ := hs.runsFor_cyclesOf hj hpage
    rw [hs.startCode_eq, microprogramOf_opcode] at hlen
    exact ⟨n, hn, hf.fetchesAfter hat, hlen⟩
  | true =>
    obtain ⟨o, ho⟩ : ∃ o, branchOffset? i = some o := by
      cases ho : branchOffset? i with
      | none => simp [branchesInPage, ho] at hpage
      | some o => exact ⟨o, rfl⟩
    obtain ⟨f, v, hi⟩ := branchesOn_of_offset ho
    obtain ⟨htaken, hsame⟩ := Bool.and_eq_true_iff.mp (hi.inPage s ▸ hpage)
    refine ⟨2, by rw [hi.cycles, htaken, hsame]; rfl, ?_, by rw [hi.program]; simp⟩
    exact hs.fetchesAfter_inPage hi ((flagIs_iff f v s).mp htaken) hsame

end

/-- Settles O10: a step runs to the fetch that the last tick of `cyclesOf` sets up, a taken branch in its page counted apart from the
others. -/
theorem cycleCounts : Obligations.CycleCounts := by
  intro s hb hu hr hj
  have hs : s.Starts (fetched s) := ⟨hb, hu, hr, rfl⟩
  obtain ⟨n, hn, hf, hlen⟩ := hs.fetchesAfter_cyclesOf hj
  rw [hn]
  refine ⟨hs.step_eq_ticks hj hf hlen, hf.done, fun k hpos hk => ?_⟩
  obtain ⟨k, rfl⟩ := Nat.exists_eq_succ_of_ne_zero hpos.ne'
  exact (hf.before k (by omega)).2

end Sys2Proof.Machine
end

section
/-!
SUPPORT. The runs of straight microprograms under an IRQ that is held, with nothing stalling them: when the boundary that ends a run recognises
it (40_execution.md R102, 60_exceptions.md R304).
-/
namespace Sys2Proof.Machine

/-! ### A held IRQ -/

/-- For so many ticks to come IRQ is asserted, nothing stalls the core, and no sample waits in bit 0 of the pipeline. -/
structure State.HeldFor (u : State) (n : Nat) : Prop where
  unstalled : u.Unstalled
  long : n ≤ u.lines.length
  irq : ∀ l ∈ u.lines, l.irq = true
  fresh : u.intr.irqPip.getLsbD 0 = false

theorem State.HeldFor.irqSample_eq {u : State} {n : Nat} (h : u.HeldFor (n + 1)) : u.irqSample = !u.flag .i := by
  obtain ⟨l, rest, hl⟩ := List.exists_cons_of_length_pos (Nat.lt_of_lt_of_le n.succ_pos h.long)
  rw [State.irqSample, State.line, hl, List.headD_cons, h.irq l (by simp [hl]), Bool.true_and]

/-- What a tick leaves of the schedule of the lines and of the pipeline of IRQ: its own sample stands in bit 1. -/
structure State.SampledFrom (v u : State) : Prop where
  lines : v.lines = u.lines.tail
  fresh : v.intr.irqPip.getLsbD 0 = false
  sample : v.intr.irqPip.getLsbD 1 = (u.intr.irqPip.getLsbD 0 || u.irqSample)

theorem State.SampledFrom.heldFor {u v : State} {n : Nat} (h : v.SampledFrom u) (hu : u.HeldFor (n + 1)) : v.HeldFor n where
  unstalled l hl := hu.unstalled l (List.mem_of_mem_tail (h.lines ▸ hl))
  long := by have := hu.long; rw [h.lines, List.length_tail]; omega
  irq l hl := hu.irq l (List.mem_of_mem_tail (h.lines ▸ hl))
  fresh := h.fresh

/-- P.I is `x`, and so it was where the last tick took its sample. -/
structure State.SampledWith (v : State) (x : Bool) : Prop where
  flag : v.flag .i = x
  sample : v.intr.irqPip.getLsbD 1 = !x

theorem State.SampledFrom.sampledWith {u v : State} {n : Nat} (h : v.SampledFrom u) (hu : u.HeldFor (n + 1)) (hi : v.flag .i = u.flag .i) :
    v.SampledWith (u.flag .i) where
  flag := hi
  sample := by rw [h.sample, hu.fresh, hu.irqSample_eq, Bool.false_or]

/-! ### The first tick of a run -/

/-- What a boundary does before T0 of the microprogram of this opcode. For a concrete boundary each field is true by `rfl`, which is its
default. -/
structure Enters (enter : State → State) (code : Byte) : Prop where
  sync : ∀ s, (enter s).sync = false := by exact fun _ => rfl
  ir : ∀ s, (enter s).ir = irAt code 0
  lines : ∀ s, (enter s).lines = s.lines := by exact fun _ => rfl
  irqPip : ∀ s, (enter s).intr.irqPip = s.intr.keepYoungest.irqPip := by exact fun _ => rfl
  flag : ∀ s, (enter s).flag .i = s.flag .i

theorem enters_enterOpcode (code : Byte) : Enters (fun s => s.enterOpcode code) code where
  ir _ := irAt_zero code
  flag _ := rfl

theorem enters_enterInterrupt : Enters State.enterInterrupt 0 where
  ir _ := rfl
  flag s := (getFlag_setFlag s.p .b .i false).trans (if_neg (by decide))

section
variable {enter : State → State} {code : Byte} (he : Enters enter code) {prog : List Action} {act : Action} (ha : prog[0]? = some act)
  {s : State} (hs : s.Unstalled) (data : Option Byte) (hp : Passes act)
include he ha hs

/-- The first tick of a run is the action of T0, on the state at the boundary that has sampled the lines and kept the youngest samples. -/
theorem Enters.cycle_eq : ∃ c t, cycle (fun c s => microStep prog c (enter s)) data s = (act c t).afterTick ∧ t.sync = false ∧
    t.ir = irAt code 1 ∧ t.lines = s.lines ∧ t.intr.irqPip = (s.intr.sample s.line (s.flag .i)).keepYoungest.irqPip ∧
    t.flag .i = s.flag .i := by
  have hsub : (enter (s.sampled (s.busInput data))).subCycle = 0 := subCycle_of_ir (he.ir _) (by decide)
  refine ⟨{ dbus := s.busByte data, res := s.line.res },
    { enter (s.sampled (s.busInput data)) with rw := false, ir := (enter (s.sampled (s.busInput data))).ir + 1 },
    ?_, he.sync _, by rw [he.ir, irAt_succ], he.lines _, he.irqPip _, he.flag _⟩
  rw [cycle_of_unstalled hs, liveTick_platform, microStep_of_subCycle hsub ha]
  rfl

include hp

/-- It goes on to T1. -/
theorem Enters.cycle_next : (cycle (fun c s => microStep prog c (enter s)) data s).SampledFrom s ∧
    (cycle (fun c s => microStep prog c (enter s)) data s).At code 1 ∧
    (Part.i.Keeps act → (cycle (fun c s => microStep prog c (enter s)) data s).flag .i = s.flag .i) := by
  obtain ⟨c, t, ht, hsync, hir, hlines, hpip, hflag⟩ := he.cycle_eq ha hs data
  have hfirst : (act c t).afterTick.intr.irqPip = (s.intr.firstTick s.line (s.flag .i)).irqPip :=
    congrArg (fun w : Word => w <<< 1) ((congrArg Intr.irqPip (hp.intr c t)).trans hpip)
  have hsampled : (act c t).afterTick.SampledFrom s :=
    ⟨congrArg List.tail ((hp.lines c t).trans hlines), afterTick_irqPip _, by rw [hfirst]; exact firstTick_irqPip_one _ _ _⟩
  rw [ht]
  exact ⟨hsampled, ⟨fun l hl => hs l (List.mem_of_mem_tail (hsampled.lines ▸ hl)), (hp.sync c t).trans hsync, (hp.ir c t).trans hir⟩,
    fun hkeep => Eq.trans (hkeep c t) hflag⟩

end

/-! ### The later ticks -/

section
variable {prog : List Action} {code : Byte} {u : State} {k : Nat} {act : Action} (h : u.At code k) (hk : k < 8) (ha : prog[k]? = some act)
  (data : Option Byte)
include h hk ha

/-- A later tick is the action of its sub-cycle, on the state that has sampled the lines. -/
theorem State.At.cycle_eq : ∃ c t, cycle (microStep prog) data u = (act c t).afterTick ∧ t.sync = false ∧ t.ir = irAt code (k + 1) ∧
    t.lines = u.lines ∧ t.intr = u.intr.sample u.line (u.flag .i) ∧ t.flag .i = u.flag .i := by
  have hsub : (u.sampled (u.busInput data)).subCycle = k := subCycle_of_ir h.ir hk
  refine ⟨{ dbus := u.busByte data, res := u.line.res }, { u.sampled (u.busInput data) with rw := false, ir := irAt code (k + 1) }, ?_,
    h.sync, rfl, rfl, rfl, rfl⟩
  rw [cycle_of_unstalled h.unstalled, liveTick_platform, microStep_of_subCycle hsub ha, ← irAt_succ, ← h.ir]
  rfl

/-- One whose action leaves the environment to the tick: the sample of the tick before moves on to where a boundary looks. -/
theorem State.At.cycle_samples (hintr : ∀ c s, (act c s).intr = s.intr) (hlines : ∀ c s, (act c s).lines = s.lines) :
    (cycle (microStep prog) data u).SampledFrom u ∧ (cycle (microStep prog) data u).intr.irqPip.getLsbD 2 = u.intr.irqPip.getLsbD 1 ∧
      (Part.i.Keeps act → (cycle (microStep prog) data u).flag .i = u.flag .i) := by
  obtain ⟨c, t, ht, -, -, htlines, htintr, htflag⟩ := h.cycle_eq hk ha data
  have hnext : (act c t).afterTick.intr = u.intr.nextTick u.line (u.flag .i) := congrArg Intr.shift ((hintr c t).trans htintr)
  rw [ht]
  refine ⟨⟨congrArg List.tail ((hlines c t).trans htlines), afterTick_irqPip _, ?_⟩, ?_, fun hkeep => Eq.trans (hkeep c t) htflag⟩
  · rw [hnext]
    exact nextTick_irqPip_one _ _ _
  · rw [hnext]
    exact nextTick_irqPip_two _ _ _

/-- One that goes on to the next sub-cycle. -/
theorem State.At.cycle_next (hp : Passes act) : (cycle (microStep prog) data u).At code (k + 1) := by
  obtain ⟨hsampled, -, -⟩ := h.cycle_samples hk ha data hp.intr hp.lines
  obtain ⟨c, t, ht, hsync, hir, -, -, -⟩ := h.cycle_eq hk ha data
  refine ⟨fun l hl => h.unstalled l (List.mem_of_mem_tail (hsampled.lines ▸ hl)), ?_, ?_⟩
  · rw [ht]
    exact (hp.sync c t).trans hsync
  · rw [ht]
    exact (hp.ir c t).trans hir

end

/-! ### Runs -/

section
variable {prog : List Action} {code : Byte} {u : State} {k : Nat} (h : u.At code k) (operand : List (Option Byte))
include h

theorem State.At.runTicks_succ (n : Nat) :
    ∃ data, runTicks prog operand (n + 1) u = runTicks prog operand n (cycle (microStep prog) data u) :=
  ⟨_, by rw [runTicks, if_neg (by simp [h.sync])]⟩

/-- A tick that goes on to the next sub-cycle. -/
theorem State.At.runTicks_next {act : Action} (ha : prog[k]? = some act) (hp : Passes act) (hk : k < 8) {n : Nat}
    (hu : u.HeldFor (n + 1)) (m : Nat) : ∃ v, runTicks prog operand (m + 1) u = runTicks prog operand m v ∧ v.At code (k + 1) ∧
      v.HeldFor n ∧ (Part.i.Keeps act → v.SampledWith (u.flag .i)) := by
  obtain ⟨data, hrun⟩ := h.runTicks_succ (prog := prog) operand m
  obtain ⟨hsampled, -, hflag⟩ := h.cycle_samples hk ha data hp.intr hp.lines
  exact ⟨_, hrun, h.cycle_next hk ha data hp, hsampled.heldFor hu, fun hkeep => hsampled.sampledWith hu (hflag hkeep)⟩

/-- Actions that go on from sub-cycle to sub-cycle and keep P.I keep what the last sample was taken with. -/
theorem State.At.runTicks_passes {pre rest : List Action} (hprog : prog.drop k = pre ++ rest) (hp : ∀ act ∈ pre, Passes act)
    (hk : k + pre.length < 8) {n : Nat} (hu : u.HeldFor (n + pre.length)) (m : Nat) :
    ∃ v, runTicks prog operand (pre.length + m) u = runTicks prog operand m v ∧ v.At code (k + pre.length) ∧ v.HeldFor n ∧
      ((∀ act ∈ pre, Part.i.Keeps act) → ∀ x, u.SampledWith x → v.SampledWith x) := by
  induction pre generalizing u k with
  | nil => exact ⟨u, by simp, h, hu, fun _ _ => id⟩
  | cons act pre ih =>
    obtain ⟨hact, hpre⟩ := List.forall_mem_cons.mp hp
    have ha : prog[k]? = some act := by rw [← List.head?_drop, hprog]; rfl
    have hdrop : prog.drop (k + 1) = pre ++ rest := by rw [← List.drop_drop, hprog]; rfl
    rw [List.length_cons] at hk hu ⊢
    obtain ⟨w, hw, hwat, hwheld, hsampled⟩ := h.runTicks_next operand ha hact (by omega) hu (pre.length + m)
    obtain ⟨v, hv, hvat, hheld, hkeep⟩ := ih hwat hdrop hpre (by omega) hwheld
    refine ⟨v, ?_, by rwa [Nat.add_assoc, Nat.add_comm 1] at hvat, hheld, fun hk x hx => ?_⟩
    · rw [Nat.add_right_comm, hw, hv]
    · obtain ⟨hkact, hkpre⟩ := List.forall_mem_cons.mp hk
      exact hkeep hkpre x (hx.flag ▸ hsampled hkact)

/-- The last tick of a run: the boundary after it looks at what the tick before has sampled. -/
theorem State.At.runTicks_last {last : Action} (ha : prog[k]? = some last) (hc : Concludes last) (hk : k < 8) {n : Nat}
    (hu : u.HeldFor (n + 1)) {x : Bool} (hx : u.SampledWith x) :
    (runTicks prog operand 1 u).HeldFor n ∧ (runTicks prog operand 1 u).intr.irqPip.getLsbD 2 = (!x) ∧
      (Part.i.Keeps last → (runTicks prog operand 1 u).flag .i = x) := by
  obtain ⟨data, hrun⟩ := h.runTicks_succ (prog := prog) operand 0
  obtain ⟨hsampled, hlook, hflag⟩ := h.cycle_samples hk ha data hc.intr hc.lines
  rw [hrun]
  exact ⟨hsampled.heldFor hu, hlook.trans hx.sample, fun hkeep => (hflag hkeep).trans hx.flag⟩

end

/-- The actions of a straight microprogram before its last ones go on from sub-cycle to sub-cycle. -/
theorem Straight.split {l rest : List Action} (hr : rest ≠ []) (h : Straight (l ++ rest)) : (∀ act ∈ l, Passes act) ∧ Straight rest := by
  induction l with
  | nil => exact ⟨List.forall_mem_nil _, h⟩
  | cons act l ih =>
    obtain ⟨next, more, hmore⟩ := List.exists_cons_of_ne_nil (List.append_ne_nil_of_right_ne_nil l hr)
    obtain ⟨hact, hnext⟩ : Passes act ∧ Straight (l ++ rest) := by
      rw [List.cons_append, hmore] at h
      exact hmore ▸ h
    obtain ⟨hl, hrest⟩ := ih hnext
    exact ⟨List.forall_mem_cons.mpr ⟨hact, hl⟩, hrest⟩

section
variable {enter : State → State} {code : Byte} (he : Enters enter code) (opcode : Option Byte) (operand : List (Option Byte))
  {first : Action} {mid : List Action} {s : State} {n : Nat}
include he

/-- A run whose actions but the last keep P.I: the next boundary looks at a sample taken with P.I from before. -/
theorem Enters.irqPip_of_kept {last : Action} (hst : Straight (first :: mid ++ [last]))
    (hkeep : ∀ act ∈ first :: mid, Part.i.Keeps act) (hlen : mid.length ≤ 6) (hs : s.HeldFor (n + 1 + mid.length + 1)) :
    let t := runFrom enter opcode (first :: mid ++ [last]) operand s
    t.HeldFor n ∧ t.intr.irqPip.getLsbD 2 = !s.flag .i := by
  obtain ⟨hpass, hc⟩ := hst.split (List.cons_ne_nil _ _)
  obtain ⟨hfirst, hmid⟩ := List.forall_mem_cons.mp hpass
  obtain ⟨hkfirst, hkmid⟩ := List.forall_mem_cons.mp hkeep
  obtain ⟨hsampled, hat, hflag⟩ := he.cycle_next (prog := first :: mid ++ [last]) rfl hs.unstalled opcode hfirst
  have hx := hsampled.sampledWith hs (hflag hkfirst)
  obtain ⟨v, hv, hvat, hheld, hmasked⟩ :=
    hat.runTicks_passes operand (prog := first :: mid ++ [last]) rfl hmid (by omega) (hsampled.heldFor hs) 1
  have hlast : (first :: mid ++ [last])[1 + mid.length]? = some last := by rw [Nat.add_comm]; simp
  obtain ⟨hdone, hlook, -⟩ := hvat.runTicks_last operand hlast hc (by omega) hheld (hmasked hkmid _ hx)
  have hrun : runFrom enter opcode (first :: mid ++ [last]) operand s = runTicks (first :: mid ++ [last]) operand 1 v := by
    rw [runFrom, List.length_append]
    exact hv
  rw [hrun]
  exact ⟨hdone, hlook⟩

/-- A run whose last two actions keep P.I: the next boundary looks at a sample taken with P.I as the run leaves it. -/
theorem Enters.irqPip_of_settled {next last : Action} (hst : Straight (first :: mid ++ [next, last])) (hknext : Part.i.Keeps next)
    (hklast : Part.i.Keeps last) (hlen : mid.length ≤ 5) (hs : s.HeldFor (n + 2 + mid.length + 1)) :
    let t := runFrom enter opcode (first :: mid ++ [next, last]) operand s
    t.HeldFor n ∧ t.intr.irqPip.getLsbD 2 = !t.flag .i := by
  obtain ⟨hpass, hnext, hc⟩ := hst.split (List.cons_ne_nil _ _)
  obtain ⟨hfirst, hmid⟩ := List.forall_mem_cons.mp hpass
  obtain ⟨hsampled, hat, -⟩ := he.cycle_next (prog := first :: mid ++ [next, last]) rfl hs.unstalled opcode hfirst
  obtain ⟨v, hv, hvat, hheld, -⟩ :=
    hat.runTicks_passes operand (prog := first :: mid ++ [next, last]) rfl hmid (by omega) (hsampled.heldFor hs) 2
  have hact : ∀ j, (first :: mid ++ [next, last])[1 + mid.length + j]? = [next, last][j]? := fun j => by
    rw [List.getElem?_append_right (by simp; omega), List.length_cons, Nat.add_comm 1, Nat.add_sub_cancel_left]
  obtain ⟨w, hw, hwat, hwheld, hx⟩ := hvat.runTicks_next operand (hact 0) hnext (by omega) hheld 1
  obtain ⟨hdone, hlook, hflag⟩ := hwat.runTicks_last operand (hact 1) hc (by omega) hwheld (hx hknext)
  have hrun : runFrom enter opcode (first :: mid ++ [next, last]) operand s = runTicks (first :: mid ++ [next, last]) operand 1 w := by
    rw [runFrom, List.length_append, ← hw]
    exact hv
  rw [hrun]
  exact ⟨hdone, hlook.trans (congrArg not (hflag hklast)).symm⟩

end

end Sys2Proof.Machine
end

section
/-!
When a change of P.I takes effect for an IRQ that is held: O59.
-/
namespace Sys2Proof.Machine

/-- At a boundary, from which IRQ is held for so many ticks. -/
structure State.HeldAtBoundary (s : State) (n : Nat) : Prop where
  boundary : s.AtBoundary
  held : s.HeldFor n

theorem State.HeldAtBoundary.mono {s : State} {m n : Nat} (h : s.HeldAtBoundary n) (hmn : m ≤ n) : s.HeldAtBoundary m :=
  ⟨h.boundary, { h.held with long := hmn.trans h.held.long }⟩

theorem State.HeldAtBoundary.recognised_irq {t : State} {n : Nat} (h : t.HeldAtBoundary n) :
    (recognised t).irq = t.intr.irqPip.getLsbD 2 := Machine.recognised_irq h.held.unstalled h.boundary.brk_eq

section
variable {i : Instr} (hi : Unforked i) {first : Action} {mid : List Action} {s t : State} {n : Nat} (h : exec i s = .next t)
include hi h

/-- After an instruction that keeps P.I up to its last tick a boundary recognises a held IRQ by P.I from before it. -/
theorem exec_recognises_before {last : Action} (hprog : microprogram i = first :: mid ++ [last])
    (hkeep : ∀ act ∈ first :: mid, Part.i.Keeps act) (hlen : mid.length ≤ 6) (hs : s.HeldAtBoundary (n + 1 + mid.length + 1)) :
    t.HeldAtBoundary n ∧ (recognised t).irq = !s.flag .i := by
  have hbound := exec_boundary hi.jam hs.boundary h
  obtain ⟨operand, hx⟩ := exec_eq_runFrom hi.jam s
  obtain rfl := Host.Outcome.next.inj (hx.symm.trans h)
  rw [hprog] at hbound ⊢
  obtain ⟨hheld, hlook⟩ :=
    (enters_enterOpcode i.opcode).irqPip_of_kept (some i.opcode) operand (hprog ▸ hi.straight) hkeep hlen hs.held
  have ht := State.HeldAtBoundary.mk hbound hheld
  exact ⟨ht, ht.recognised_irq.trans hlook⟩

/-- After an instruction that keeps P.I in its last two ticks a boundary recognises a held IRQ by P.I as the instruction leaves it. -/
theorem exec_recognises_after {next last : Action} (hprog : microprogram i = first :: mid ++ [next, last])
    (hknext : Part.i.Keeps next) (hklast : Part.i.Keeps last) (hlen : mid.length ≤ 5)
    (hs : s.HeldAtBoundary (n + 2 + mid.length + 1)) : t.HeldAtBoundary n ∧ (recognised t).irq = !t.flag .i := by
  have hbound := exec_boundary hi.jam hs.boundary h
  obtain ⟨operand, hx⟩ := exec_eq_runFrom hi.jam s
  obtain rfl := Host.Outcome.next.inj (hx.symm.trans h)
  rw [hprog] at hbound ⊢
  obtain ⟨hheld, hlook⟩ :=
    (enters_enterOpcode i.opcode).irqPip_of_settled (some i.opcode) operand (hprog ▸ hi.straight) hknext hklast hlen hs.held
  have ht := State.HeldAtBoundary.mk hbound hheld
  exact ⟨ht, ht.recognised_irq.trans hlook⟩

end

section
variable {s t : State} {n : Nat}

theorem keeps_dummyRead : Part.i.Keeps fun _ s => s.readAtPc := fun _ _ => rfl

/-- A NOP keeps P.I. -/
theorem recognised_after_nop (h : exec .nopEA s = .next t) (hs : s.HeldAtBoundary (n + 2)) :
    t.HeldAtBoundary n ∧ (recognised t).irq = !s.flag .i :=
  exec_recognises_before ⟨rfl, rfl, rfl⟩ h (mid := []) rfl (List.forall_mem_singleton.mpr keeps_dummyRead) (by decide) hs

/-- CLI, SEI and PLP write P.I in their last tick. -/
theorem recognised_after_mask {i : Instr} (hi : i ∈ ([.cli, .sei, .plp] : List Instr)) (h : exec i s = .next t)
    (hs : s.HeldAtBoundary (n + 4)) : t.HeldAtBoundary n ∧ (recognised t).irq = !s.flag .i := by
  have hshort : s.HeldAtBoundary (n + 2) := hs.mono (by omega)
  have hdummy : ∀ act ∈ [fun _ s => s.readAtPc], Part.i.Keeps act := List.forall_mem_singleton.mpr keeps_dummyRead
  have hpull : ∀ act ∈ [fun _ s => s.readAtPc, fun _ s => s.stepStack, fun _ s => s.readStack], Part.i.Keeps act := by
    simp only [List.forall_mem_cons, List.not_mem_nil, false_implies, implies_true, and_true]
    exact ⟨keeps_dummyRead, fun _ _ => rfl, fun _ _ => rfl⟩
  simp only [List.mem_cons, List.not_mem_nil, or_false] at hi
  rcases hi with rfl | rfl | rfl
  · exact exec_recognises_before ⟨rfl, rfl, rfl⟩ h (mid := []) rfl hdummy (by decide) hshort
  · exact exec_recognises_before ⟨rfl, rfl, rfl⟩ h (mid := []) rfl hdummy (by decide) hshort
  · exact exec_recognises_before ⟨rfl, rfl, rfl⟩ h (mid := [_, _]) rfl hpull (by simp) hs

/-- RTI restores P in its last tick but two. -/
theorem recognised_after_return (h : exec .rti s = .next t) (hs : s.HeldAtBoundary (n + 6)) :
    t.HeldAtBoundary n ∧ (recognised t).irq = !t.flag .i :=
  exec_recognises_after ⟨rfl, rfl, rfl⟩ h (mid := [_, _, _]) rfl (fun _ _ => rfl) (fun _ _ => rfl) (by simp) hs

/-- A sequence masks IRQ in its last tick but two. -/
theorem recognised_after_sequence (h : recognises s = true ∧ t = takeInterrupt s ∨ exec .brk s = .next t)
    (hs : s.HeldAtBoundary (n + 7)) : t.HeldAtBoundary n ∧ (recognised t).irq = !t.flag .i := by
  rcases h with ⟨-, rfl⟩ | h
  · obtain ⟨hheld, hlook⟩ := enters_enterInterrupt.irqPip_of_settled none [] (mid := [_, _, _, _]) straight_interruptTicks
      (fun _ _ => rfl) (fun _ _ => rfl) (by simp) hs.held
    have ht : (takeInterrupt s).HeldAtBoundary n := ⟨(takeInterrupt_arch hs.boundary).2, hheld⟩
    exact ⟨ht, ht.recognised_irq.trans hlook⟩
  · exact exec_recognises_after ⟨rfl, rfl, rfl⟩ h (mid := [_, _, _, _]) rfl (fun _ _ => rfl) (fun _ _ => rfl) (by simp) hs

end

/-- Settles O59: a boundary looks at the sample of the last tick but one. CLI, SEI and PLP write P.I after it; RTI and the sequences write it
before. -/
theorem cliDelaysIrq : Obligations.CliDelaysIrq := by
  intro s hb hu hirq hlen hheld
  have hs : s.HeldAtBoundary 10 := ⟨hb, hu, hlen, hheld, by simp [hirq]⟩
  refine ⟨fun i hi t u ht hnop => ?mask, fun t u ht hnop => ?pulled, fun t u ht hnop => ?sequence⟩
  case mask =>
    obtain ⟨hst, hrt⟩ := recognised_after_mask (n := 6) hi ht hs
    exact ⟨hrt, (recognised_after_nop (n := 4) hnop hst).2⟩
  case pulled =>
    obtain ⟨hst, hrt⟩ := recognised_after_return (n := 4) ht hs
    exact ⟨hrt, (recognised_after_nop (n := 2) hnop hst).2⟩
  case sequence =>
    obtain ⟨hst, hrt⟩ := recognised_after_sequence (n := 3) ht hs
    obtain ⟨-, hmasked, -⟩ := sequenceEffects s t hb ht
    have hnone : (!t.flag .i) = false := by rw [hmasked]; rfl
    exact ⟨hrt.trans hnone, (recognised_after_nop (n := 1) hnop hst).2.trans hnone⟩

end Sys2Proof.Machine
end
